-- ==== Sys2Proof/Word.lean ====
section
/-! DEFINITION. The word types of LUVS-I2CM (00_scope.md R10, R13): unsigned bit vectors, bit 0 least significant. -/

namespace Sys2Proof

/-- A bus data byte, a window offset, a device address byte (R10). -/
abbrev Byte := BitVec 8

/-- A raw sensor reading, a checksum (R10). -/
abbrev Half := BitVec 16

/-- A host register, a command word (R10). -/
abbrev Word := BitVec 32

end Sys2Proof
end

