-- ==== Sys2Proof/Config.lean ====
section
/-! DEFINITION. What an implementation fixes (00_scope.md R9, R58) and the free values: every OPEN parameter is an
uninterpreted constant, and so are ENV's answers and the schedule, applied to a counter that State holds. -/

namespace Sys2Proof

/-- Whose turn it is, R12 and R72: each run is one interleaving of whole steps of these agents. `reset` is the
platform asserting power-on reset (70_reset_and_hazards.md R205). ENV takes no turn of its own (R118). -/
inductive Turn where
  | host
  | seq
  | phy
  | reset
deriving DecidableEq, Repr, Inhabited

/-- The device constants of R9, OPEN (92_eei_decisions.md D33, D42). -/
structure DeviceParams where
  lightAddrLo : Byte
  lightAddrHi : Byte
  lightCmdContH : Byte
  lightCmdContH2 : Byte
  lightCmdContL : Byte
  lightCmdOneH : Byte
  lightCmdOneH2 : Byte
  lightCmdOneL : Byte
  mtPrefixHi : Byte
  mtPrefixLo : Byte
  uvDevAddr : Byte
  uvRegConf : Byte
  uvRegUva : Byte
  uvRegUvb : Byte
  uvRegComp1 : Byte
  uvRegComp2 : Byte
  uvIt0 : Byte
  uvIt1 : Byte
  uvIt2 : Byte
  uvIt3 : Byte
  uvHdMask : Byte
deriving DecidableEq, Repr, Inhabited

/-- The six light mode bytes, in the order of 41_light.md R143. -/
def DeviceParams.lightModes (p : DeviceParams) : List Byte :=
  [p.lightCmdContH, p.lightCmdContH2, p.lightCmdContL, p.lightCmdOneH, p.lightCmdOneH2, p.lightCmdOneL]

/-- UV_IT_BITS[0..3]. -/
def DeviceParams.uvItBits (p : DeviceParams) : List Byte := [p.uvIt0, p.uvIt1, p.uvIt2, p.uvIt3]

/-- UV_IT_BITS[sel], sel = 0, 1, 2, 3 for 100, 200, 400, 800 (R22, R161). -/
def DeviceParams.uvItSel (p : DeviceParams) (sel : BitVec 2) : Byte :=
  match sel.toNat with
  | 0 => p.uvIt0
  | 1 => p.uvIt1
  | 2 => p.uvIt2
  | _ => p.uvIt3

/-- What the spec requires of the OPEN values: light addresses with bit 0 = 0 (R9), six distinct mode bytes (R143),
four distinct UV_IT_BITS, one bit set in UV_HD_MASK, and no overlap between them (42_uv.md R161). -/
def DeviceParams.ok (p : DeviceParams) : Bool :=
  !p.lightAddrLo.getLsbD 0 && !p.lightAddrHi.getLsbD 0 &&
  decide p.lightModes.Nodup && decide p.uvItBits.Nodup &&
  (List.range 8).any (fun i => p.uvHdMask == 1#8 <<< i) &&
  p.uvItBits.all (fun b => b &&& p.uvHdMask == 0#8)

namespace Config

/-- Instance G, non-normative (93_implementation_defined.md section 3). It shows that `DeviceParams.ok` can hold; no
statement rests on its values. -/
def instanceG : DeviceParams where
  lightAddrLo := 0x46
  lightAddrHi := 0xB8
  lightCmdContH := 0x10
  lightCmdContH2 := 0x11
  lightCmdContL := 0x13
  lightCmdOneH := 0x20
  lightCmdOneH2 := 0x21
  lightCmdOneL := 0x23
  mtPrefixHi := 0x40
  mtPrefixLo := 0x60
  uvDevAddr := 0x20
  uvRegConf := 0x00
  uvRegUva := 0x07
  uvRegUvb := 0x09
  uvRegComp1 := 0x0A
  uvRegComp2 := 0x0B
  uvIt0 := 0x10
  uvIt1 := 0x20
  uvIt2 := 0x30
  uvIt3 := 0x40
  uvHdMask := 0x08

/-- Any choice of the device constants at all: uninterpreted. -/
opaque deviceChoice : DeviceParams

/-- The implementation's device constants: ANY values that meet `DeviceParams.ok`, and nothing more is known of them.
(A choice that breaks the spec's requirements is no implementation; it is replaced by one that meets them.)
DESIGN CHOICE, log 9; safe: every admissible set of values is some `deviceChoice`. -/
def device : DeviceParams := if deviceChoice.ok then deviceChoice else instanceG

/-- R9, source value: polls per bounded wait. -/
def RETRY_MAX : Nat := 150

/-- R9, source value: SCL pulses per recovery. -/
def RECOVERY_PULSES : Nat := 8

/-- R9, source value: milliseconds of each SCL phase in recovery; no time is modelled (R219; log 16). -/
def T_PHASE : Nat := 1

/-- R9, source value: milliseconds between light mode set and light read, the host's obligation (R213). -/
def T_CONV_MIN : Nat := 180

/-- R9, source value: bytes of the telemetry frame. -/
def FRAME_LEN : Nat := 50

/-- R9, source value: bytes covered by the checksum. -/
def CK_COVER : Nat := 48

/-- OPEN (R9, 43_frame.md R174): the checksum, a total pure function of a byte sequence (log 11). -/
opaque CHECKSUM16 : List Byte → Half

/-- External input, sampled at reset (R9, R58; log 10). -/
opaque STRAP : Bool

/-- OPEN (D42): reset value of CTRL.UV_IT (log 10). -/
opaque UV_IT_DEFAULT : BitVec 2

/-- OPEN (D42): reset value of CTRL.UV_HD (log 10). -/
opaque UV_HD_DEFAULT : Bool

/-- OPEN (20_memory.md R68): the platform address of the window's offset 0 (log 10). -/
opaque WINDOW_BASE : Nat

/-- The platform address of a window offset, R68. No rule of the block depends on it. -/
def windowAddress (off : Byte) : Nat := WINDOW_BASE + off.toNat

/-- The named parameters of R9, read from the implementation's constants. -/
def LIGHT_ADDR_LO : Byte := device.lightAddrLo
def LIGHT_ADDR_HI : Byte := device.lightAddrHi
def LIGHT_CMD_CONT_H : Byte := device.lightCmdContH
def MT_PREFIX_HI : Byte := device.mtPrefixHi
def MT_PREFIX_LO : Byte := device.mtPrefixLo
def UV_DEV_ADDR : Byte := device.uvDevAddr
def UV_REG_CONF : Byte := device.uvRegConf
def UV_REG_UVA : Byte := device.uvRegUva
def UV_REG_UVB : Byte := device.uvRegUvb
def UV_REG_COMP1 : Byte := device.uvRegComp1
def UV_REG_COMP2 : Byte := device.uvRegComp2
def UV_HD_MASK : Byte := device.uvHdMask

/-- UV_IT_BITS[sel] (R161). -/
def UV_IT_BITS (sel : BitVec 2) : Byte := device.uvItSel sel

/-- ENV's answers once State lists none (R79, R118): free values, numbered by State's counter of draws (log 2). -/
opaque envAck : Nat → Bool
opaque envByte : Nat → Byte
opaque envSda : Nat → Bool
opaque envPoll : Nat → Bool

/-- Whose turn it is once State lists none (R72, R106): a free value, numbered by State's counter of turns (log 1). -/
opaque turnAt : Nat → Turn

end Config

end Sys2Proof
end

