-- ==== Sys2Proof/Syntax.lean ====
section
/-! DEFINITION. The commands of the host command port (30_encoding.md R80, R82), the host's accesses of the
register window (20_memory.md R65, R68) and the assembler's lines (R91, R93). -/

namespace Sys2Proof

/-- One command of the opcode map, R82: one constructor per row of the opcode table. A command word holds no
operand but the F flag; every other operand is read from S.arg (R83). -/
inductive Instr where
  | nop
  | init
  | deinit
  | start
  | rstart
  | stop
  | write
  /-- `sendAck` is F: true drives ACK after the byte (R84). -/
  | read (sendAck : Bool)
  | recover
  /-- `highVariant` is F (R84). -/
  | lSetAddr (highVariant : Bool)
  | lSetMode
  | lSetMt
  | lRead
  | uvWrCfg
  | uvRdReg
  | uvStart
  | uvRead
  | frBuild
  | cntInc
deriving DecidableEq, Repr

/-- What STATUS.ERRCODE names, 60_exceptions.md R187. `none` is code 0, no error recorded. -/
inductive ErrCode where
  | none
  | illegalOpcode
  | reservedBits
  | notInit
  | badArg
  | badAccess
deriving DecidableEq, Repr

/-- The registers of the host window, 10_state.md R21. `frame k` is word k of FRAME, at offset 0x80 + 4k. -/
inductive RegName where
  | ctrl | status | arg | cmd | res | clkHz | laddr | cnt | nodeType | uid0 | uid1 | swver | batt | temp
  | uva | uvb | comp1 | comp2 | light | diagTmo | diagNack | diagRecov | diagColl
  | frame (k : Nat)
deriving DecidableEq, Repr

/-- The width of a host access, R65: 1, 2 or 4 bytes. -/
inductive Width where
  | byte
  | half
  | word
deriving DecidableEq, Repr

/-- What the host does in one of its steps, R65 and R93. -/
inductive HostOp where
  /-- `MemWrite(off, n, v)`. -/
  | write (off : Byte) (width : Width) (value : Word)
  /-- `MemRead(off, n)`. -/
  | read (off : Byte) (width : Width)
  /-- The poll loop of WAITDONE, R93: one poll of STATUS per step, until BUSY reads 0. -/
  | waitDone
  /-- A delay of at least n milliseconds, R93: a host step that changes no block state. -/
  | waitMs (n : Nat)
deriving DecidableEq, Repr

/-- A command line of the assembler, R91, with its operands as written. -/
inductive Command where
  | nop
  | init (hz : Nat)
  | deinit
  | start
  | rstart
  | stop
  | write (b : Nat)
  | read (ack : Bool)
  | recover
  | lSetAddr (hi : Bool)
  | lSetMode (c : Nat)
  | lSetMt (v : Nat)
  | lRead
  | uvWrCfg (a r lo hi : Nat)
  | uvRdReg (a r : Nat)
  | uvStart
  | uvRead
  | frBuild
  | cntInc
deriving DecidableEq, Repr

/-- A line of a LUVS-I2CM program, R91, and the pseudo-instructions of R93. -/
inductive Line where
  | sw (r : RegName) (v : Nat)
  | lw (r : RegName)
  | lb (off : Nat)
  | cmd (c : Command)
  | waitDone
  | clrStat
  | waitMs (n : Nat)
  | probe (a : Nat)
  | setUid (b0 b1 b2 b3 b4 b5 b6 b7 : Nat)
  | callNw (c : Command)
deriving DecidableEq, Repr

/-- CTRL's fields as a boot writes them, 70_reset_and_hazards.md R208 step 1; `uvIt` is the selection 0 to 3. -/
structure BootCtrl where
  mtCompat : Bool
  uvIt : Fin 4
  uvHd : Bool
deriving DecidableEq, Repr

/-- A node's unique address, byte 0 to byte 7, as SETUID takes them (R93). -/
structure NodeUid where
  b0 : Nat
  b1 : Nat
  b2 : Nat
  b3 : Nat
  b4 : Nat
  b5 : Nat
  b6 : Nat
  b7 : Nat
deriving DecidableEq, Repr

/-- What a host chooses in the boot sequence, R208: `none` where it leaves an optional step out. -/
structure BootPlan where
  /-- Step 1. -/
  ctrl : Option BootCtrl
  /-- Step 2: the target clock. -/
  clockHz : Nat
  /-- Steps 2 and 3 swapped: RECOVER before INIT. -/
  recoverFirst : Bool
  /-- Step 4: true for the high variant. -/
  lightAddr : Option Bool
  /-- Step 7. -/
  mtValue : Option Nat
  /-- Step 8, the frame identity inputs. -/
  nodeType : Nat
  uid : NodeUid
  swver : Nat
deriving DecidableEq, Repr

end Sys2Proof
end

