-- ==== Sys2Proof/WellFormed.lean ====
section
/-! DEFINITION. Which terms of the syntax a program may hold. A command word's only operand is one flag bit, so every
`Instr` is well formed; the checks stand on the assembler's operands: "An operand outside its field width ... is an
assembly error and is not silently truncated" (30_encoding.md R91). -/

namespace Sys2Proof

/-- Every `Instr` is well formed: its one operand, F, is a Bool (R80, R84). One row per constructor, so that a new
constructor with an operand cannot slip past. -/
def Instr.wellFormed : Instr → Bool
  | .nop => true
  | .init => true
  | .deinit => true
  | .start => true
  | .rstart => true
  | .stop => true
  | .write => true
  | .read _ => true
  | .recover => true
  | .lSetAddr _ => true
  | .lSetMode => true
  | .lSetMt => true
  | .lRead => true
  | .uvWrCfg => true
  | .uvRdReg => true
  | .uvStart => true
  | .uvRead => true
  | .frBuild => true
  | .cntInc => true

/-- An operand fits its field of `bits` bits. -/
def fits (bits n : Nat) : Bool := n < 2 ^ bits

/-- The operand widths of R83: INIT 32 bits, every other operand 8 bits. -/
def Command.wellFormed : Command → Bool
  | .init hz => fits 32 hz
  | .write b => fits 8 b
  | .lSetMode c => fits 8 c
  | .lSetMt v => fits 8 v
  | .uvWrCfg a r lo hi => fits 8 a && fits 8 r && fits 8 lo && fits 8 hi
  | .uvRdReg a r => fits 8 a && fits 8 r
  | .nop => true
  | .deinit => true
  | .start => true
  | .rstart => true
  | .stop => true
  | .read _ => true
  | .recover => true
  | .lSetAddr _ => true
  | .lRead => true
  | .uvStart => true
  | .uvRead => true
  | .frBuild => true
  | .cntInc => true

/-- A register name of R21: FRAME has 13 words, 0x80 to 0xB0. -/
def RegName.wellFormed : RegName → Bool
  | .frame k => k < 13
  | _ => true

/-- A line's operands fit: a register value 32 bits, an offset, a device address and a UID byte 8 bits. -/
def Line.wellFormed : Line → Bool
  | .sw r v => r.wellFormed && fits 32 v
  | .lw r => r.wellFormed
  | .lb off => fits 8 off
  | .cmd c => c.wellFormed
  | .waitDone => true
  | .clrStat => true
  | .waitMs _ => true
  | .probe a => fits 8 a
  | .setUid b0 b1 b2 b3 b4 b5 b6 b7 => [b0, b1, b2, b3, b4, b5, b6, b7].all (fits 8)
  | .callNw c => c.wellFormed

end Sys2Proof
end

