-- ==== Sys2Proof/Decode.lean ====
section
/-! DEFINITION. The command word: the total decoder of 30_encoding.md R80 to R85 with its rejections by name, the
encoder, and the opcode table as rows of mask and match (R94). NOT_INIT and BAD_ARG, which read state, are the meanings'
(log 5). -/

namespace Sys2Proof

/-- A row of the opcode map, R82: whether the opcode has the F flag, and the command for a value of F. -/
structure OpcodeRow where
  hasF : Bool
  make : Bool → Instr

/-- OPC = [7:0], R80. -/
def opcField (w : Word) : Byte := w.extractLsb' 0 8

/-- F = [8], R80. -/
def flagField (w : Word) : Bool := w.getLsbD 8

/-- RSV = [31:9], R80. -/
def rsvField (w : Word) : BitVec 23 := w.extractLsb' 9 23

/-- The opcode map, R82. `none` marks the unassigned values (R85). -/
def opcodeMap (opc : Nat) : Option OpcodeRow :=
  match opc with
  | 0x00 => some ⟨false, fun _ => .nop⟩
  | 0x01 => some ⟨false, fun _ => .init⟩
  | 0x02 => some ⟨false, fun _ => .deinit⟩
  | 0x03 => some ⟨false, fun _ => .start⟩
  | 0x04 => some ⟨false, fun _ => .rstart⟩
  | 0x05 => some ⟨false, fun _ => .stop⟩
  | 0x06 => some ⟨false, fun _ => .write⟩
  | 0x07 => some ⟨true, fun f => .read f⟩
  | 0x08 => some ⟨false, fun _ => .recover⟩
  | 0x10 => some ⟨true, fun f => .lSetAddr f⟩
  | 0x11 => some ⟨false, fun _ => .lSetMode⟩
  | 0x12 => some ⟨false, fun _ => .lSetMt⟩
  | 0x13 => some ⟨false, fun _ => .lRead⟩
  | 0x20 => some ⟨false, fun _ => .uvWrCfg⟩
  | 0x21 => some ⟨false, fun _ => .uvRdReg⟩
  | 0x22 => some ⟨false, fun _ => .uvStart⟩
  | 0x23 => some ⟨false, fun _ => .uvRead⟩
  | 0x30 => some ⟨false, fun _ => .frBuild⟩
  | 0x31 => some ⟨false, fun _ => .cntInc⟩
  | _ => none

/-- The checks of R81 that read the word alone, in their order: ILLEGAL_OPCODE, then RESERVED_BITS. -/
def decodeWord (w : Word) : Except ErrCode Instr :=
  match opcodeMap (opcField w).toNat with
  | none => .error .illegalOpcode
  | some row =>
    if rsvField w ≠ 0#23 || (flagField w && !row.hasF) then .error .reservedBits
    else .ok (row.make (flagField w))

/-- The command word of four bytes as the window stores them, lowest offset first (20_memory.md R60). -/
def wordOfBytes (b0 b1 b2 b3 : Byte) : Word := b3 ++ b2 ++ b1 ++ b0

/-- The command at the head of a byte sequence and the bytes after it; a sequence of fewer than four bytes holds no
command word and is rejected as a bad access (R65: a CMD write is four bytes wide). -/
def decodeBytes : List Byte → Except ErrCode (Instr × List Byte)
  | b0 :: b1 :: b2 :: b3 :: rest =>
    match decodeWord (wordOfBytes b0 b1 b2 b3) with
    | .error c => .error c
    | .ok i => .ok (i, rest)
  | _ => .error .badAccess

/-- OPC of a command, R82. -/
def Instr.opcode : Instr → Byte
  | .nop => 0x00
  | .init => 0x01
  | .deinit => 0x02
  | .start => 0x03
  | .rstart => 0x04
  | .stop => 0x05
  | .write => 0x06
  | .read _ => 0x07
  | .recover => 0x08
  | .lSetAddr _ => 0x10
  | .lSetMode => 0x11
  | .lSetMt => 0x12
  | .lRead => 0x13
  | .uvWrCfg => 0x20
  | .uvRdReg => 0x21
  | .uvStart => 0x22
  | .uvRead => 0x23
  | .frBuild => 0x30
  | .cntInc => 0x31

/-- F of a command, R84: sendAck, highVariant, and 0 for every other opcode. -/
def Instr.flag : Instr → Bool
  | .read sendAck => sendAck
  | .lSetAddr highVariant => highVariant
  | .nop => false
  | .init => false
  | .deinit => false
  | .start => false
  | .rstart => false
  | .stop => false
  | .write => false
  | .recover => false
  | .lSetMode => false
  | .lSetMt => false
  | .lRead => false
  | .uvWrCfg => false
  | .uvRdReg => false
  | .uvStart => false
  | .uvRead => false
  | .frBuild => false
  | .cntInc => false

/-- "The encoded word is OPC | (F << 8)", R80. -/
def encode (i : Instr) : Word := 0#23 ++ BitVec.ofBool i.flag ++ i.opcode

/-- A row of the machine-readable opcode table, R94: a word matches when `w &&& mask = pattern`. -/
structure TableRow where
  mnemonic : String
  pattern : Word
  mask : Word
deriving DecidableEq, Repr

/-- The opcode table, one row per mnemonic; READ and L.SETADDR leave F out of the mask (R94). -/
def opcodeTable : List TableRow :=
  [ ⟨"NOP", 0x00000000, 0xFFFFFFFF⟩,
    ⟨"INIT", 0x00000001, 0xFFFFFFFF⟩,
    ⟨"DEINIT", 0x00000002, 0xFFFFFFFF⟩,
    ⟨"START", 0x00000003, 0xFFFFFFFF⟩,
    ⟨"RSTART", 0x00000004, 0xFFFFFFFF⟩,
    ⟨"STOP", 0x00000005, 0xFFFFFFFF⟩,
    ⟨"WRITE", 0x00000006, 0xFFFFFFFF⟩,
    ⟨"READ", 0x00000007, 0xFFFFFEFF⟩,
    ⟨"RECOVER", 0x00000008, 0xFFFFFFFF⟩,
    ⟨"L.SETADDR", 0x00000010, 0xFFFFFEFF⟩,
    ⟨"L.SETMODE", 0x00000011, 0xFFFFFFFF⟩,
    ⟨"L.SETMT", 0x00000012, 0xFFFFFFFF⟩,
    ⟨"L.READ", 0x00000013, 0xFFFFFFFF⟩,
    ⟨"UV.WRCFG", 0x00000020, 0xFFFFFFFF⟩,
    ⟨"UV.RDREG", 0x00000021, 0xFFFFFFFF⟩,
    ⟨"UV.START", 0x00000022, 0xFFFFFFFF⟩,
    ⟨"UV.READ", 0x00000023, 0xFFFFFFFF⟩,
    ⟨"FR.BUILD", 0x00000030, 0xFFFFFFFF⟩,
    ⟨"CNT.INC", 0x00000031, 0xFFFFFFFF⟩ ]

/-- A word matches a row of the table. -/
def TableRow.hits (row : TableRow) (w : Word) : Bool := w &&& row.mask == row.pattern

/-- The table's mnemonic of a command. -/
def Instr.mnemonic : Instr → String
  | .nop => "NOP"
  | .init => "INIT"
  | .deinit => "DEINIT"
  | .start => "START"
  | .rstart => "RSTART"
  | .stop => "STOP"
  | .write => "WRITE"
  | .read _ => "READ"
  | .recover => "RECOVER"
  | .lSetAddr _ => "L.SETADDR"
  | .lSetMode => "L.SETMODE"
  | .lSetMt => "L.SETMT"
  | .lRead => "L.READ"
  | .uvWrCfg => "UV.WRCFG"
  | .uvRdReg => "UV.RDREG"
  | .uvStart => "UV.START"
  | .uvRead => "UV.READ"
  | .frBuild => "FR.BUILD"
  | .cntInc => "CNT.INC"

/-- The four bytes of a command word given as a number, as the window stores them: lowest byte first (R60). -/
def tableBytes (nbits w : Nat) : List Byte :=
  let n := w % 2 ^ nbits
  [BitVec.ofNat 8 n, BitVec.ofNat 8 (n / 2 ^ 8), BitVec.ofNat 8 (n / 2 ^ 16), BitVec.ofNat 8 (n / 2 ^ 24)]

/-- The command the decoder reads from the table's number `w` of `nbits` bits. A number of more than 32 bits is no
command word (R80: one format, 32 bits). -/
def decodeTableWord (nbits w : Nat) : Option Instr :=
  if w % 2 ^ nbits < 2 ^ 32 then
    match decodeBytes (tableBytes nbits w) with
    | .ok (i, []) => some i
    | _ => none
  else none

end Sys2Proof
end

