-- ==== Sys2Proof/Machine/State.lean ====
section
/-! DEFINITION. Everything 10_state.md gives the machine, as plain data, and the state after power-on reset (R59).
The machine's name for a piece of state stands in its docstring. -/

namespace Sys2Proof.Machine

/-- A bus condition, 40_transport.md R107. -/
inductive Cond where
  | start
  | rstart
  | stop
deriving DecidableEq, Repr

/-- A transfer of the PHY, R43. A bit is a Bool, true for 1: an acknowledge bit of true is NACK (R88). -/
inductive PhyOp where
  | tx (b : Byte)
  | rx
  | ackdrv (a : Bool)
deriving DecidableEq, Repr

/-- What collided, R108 and R119. -/
inductive Collider where
  | cond (c : Cond)
  | op (o : PhyOp)
  | recover
deriving DecidableEq, Repr

/-- Who controls SCL, R51. -/
inductive SclOwner where
  | phy
  | gpio
  | released
deriving DecidableEq, Repr

/-- Who controls SDA, R51. -/
inductive SdaOwner where
  | phy
  | released
deriving DecidableEq, Repr

/-- S.fs, R48: Idle or Open. -/
inductive Framing where
  | idle
  | opened
deriving DecidableEq, Repr

/-- A kind of trace record with its data, R52. -/
inductive Event where
  | cond (c : Cond)
  | issue (o : PhyOp)
  | collision (x : Collider)
  | abandon
  | sclctl (o : SclOwner)
  | scl (level : Bool)
  | sda (v : Bool)
  | txdone (a : Bool)
  | rxdone (b : Byte)
  | ackdone
deriving DecidableEq, Repr

/-- The flags of a trace record, R52. -/
structure Flags where
  unframed : Bool
  reopen : Bool
  unrel : Bool
deriving DecidableEq, Repr

/-- A record of S.trace, R52. -/
structure Record where
  event : Event
  flags : Flags
deriving DecidableEq, Repr

/-- Where a micro-op takes the byte it sends: a constant, byte k of S.arg (R83), LADDR[7:0] (R142), a sequencer
temporary (R49), or one more than another byte modulo 256, the read address (R69). -/
inductive ByteSrc where
  | lit (b : Byte)
  | arg (k : Nat)
  | laddr
  | t0
  | t1
  | succ (b : ByteSrc)
deriving DecidableEq, Repr

/-- Where CAP_RX puts the received byte, R103. -/
inductive RxDst where
  | res
  | t0
  | t1
deriving DecidableEq, Repr

/-- The UV result registers, R36. -/
inductive UvReg where
  | uva
  | uvb
  | comp1
  | comp2
deriving DecidableEq, Repr

/-- The register writes of a SET micro-op, R103: each command rule names its own. -/
inductive SetOp where
  | init
  | deinit
  | laddr (highVariant : Bool)
  | mtHi
  | mtLo
  | light
  | uvCfg
  /-- UV.RDREG writes RES only; UV.READ also the named register. -/
  | uvVal (dst : Option UvReg)
  | frame
  | cntInc
deriving DecidableEq, Repr

/-- The micro-ops of R103 and R119. -/
inductive MuOp where
  | waitIdle
  | waitCi
  | clrCi
  | cond (c : Cond)
  | txgo (b : ByteSrc)
  | rxgo
  | ackgo (a : Bool)
  /-- CAP_ACK(RES) or CAP_ACK(none). -/
  | capAck (toRes : Bool)
  | capRx (dst : RxDst)
  | set (e : SetOp)
  | sdaSample
  | brHigh (target : Nat)
  | sclTake
  | sclDrive (level : Bool)
  | delay (ms : Nat)
  | sclRestore
  | recFinish
deriving DecidableEq, Repr

/-- `run(op, prog, step, iter, t)` of R49, with the data-line sample that R119's SDA_SAMPLE draws and its BR_HIGH and
REC_FINISH read (log 6). -/
structure Run where
  op : Instr
  prog : List MuOp
  step : Nat
  iter : Nat
  t0 : Byte
  t1 : Byte
  sda : Bool
deriving DecidableEq, Repr

/-- S.seq, R49: the block's program counter. -/
inductive Sequencer where
  | idle
  | run (r : Run)
deriving DecidableEq, Repr

/-- CTRL, R22. -/
structure Ctrl where
  mtCompat : Bool
  uvIt : BitVec 2
  uvHd : Bool
deriving DecidableEq, Repr

/-- The STATUS fields stored in STATUS itself, R24. BUSY, INIT, POISON and FS_OPEN show S.seq, S.initd,
S.phy.poisoned and S.fs (R44, R48, R49, R53) and are stored there (log 12). -/
structure Status where
  ack : Bool
  tmo : Bool
  coll : Bool
  stuck : Bool
  recovered : Bool
  err : Bool
  errOvf : Bool
  wwb : Bool
  frameValid : Bool
  errcode : ErrCode
deriving DecidableEq, Repr

/-- DIAG_TMO, DIAG_NACK, DIAG_RECOV and DIAG_COLL, R38. -/
structure Diag where
  tmo : Word
  nack : Word
  recov : Word
  coll : Word
deriving DecidableEq, Repr

/-- S.phy, R43 and R44. -/
structure Phy where
  pending : Option PhyOp
  poisoned : Bool
deriving DecidableEq, Repr

/-- S.pins, R51. `sclLevel` is scl_gpio_level, true for high. -/
structure Pins where
  sclOwner : SclOwner
  sclLevel : Bool
  sdaOwner : SdaOwner
deriving DecidableEq, Repr

/-- The MODEL's own: ENV's coming answers, as given from outside, and how many free draws were made once a list was
empty (log 2). -/
structure Env where
  acks : List Bool
  bytes : List Byte
  sdas : List Bool
  polls : List Bool
  drawn : Nat
deriving DecidableEq, Repr

/-- A memory: cells with strictly rising addresses, none equal to what an unlisted address reads as. The block's one
memory-like array is FRAME (R56), keyed by window offset. -/
abbrev Memory := List Host.Cell

/-- What an unlisted offset reads as: 0x00, FRAME's reset value (R39, R59) and the value of FRAME's positions 50 and 51
and of reserved offsets (R39, R40; log 15). -/
def Memory.unlisted : Byte := 0x00

/-- The canonical form of a memory. -/
abbrev Memory.wf (m : Memory) : Prop :=
  m.Pairwise (fun c d => c.1 < d.1) ∧ ∀ c ∈ m, c.2 ≠ Memory.unlisted

/-- The state of LUVS-I2CM with its surroundings. -/
structure State where
  /-- CTRL, R22. -/
  ctrl : Ctrl
  /-- STATUS, R24. -/
  status : Status
  /-- ARG, R26. -/
  arg : Word
  /-- CMD, R27. -/
  cmd : Word
  /-- RES, R28. -/
  res : Word
  /-- CLK_HZ, R29. -/
  clkHz : Word
  /-- LADDR[7:0], R30. -/
  laddr : Byte
  /-- CNT, the MessageCounter, R31. -/
  cnt : Word
  /-- NODE_TYPE[15:0], R32. -/
  nodeType : Half
  /-- UID0, R33. -/
  uid0 : Word
  /-- UID1, R33. -/
  uid1 : Word
  /-- SWVER[7:0], R34. -/
  swver : Byte
  /-- BATT[15:0], R35. -/
  batt : Half
  /-- TEMP[15:0], R35. -/
  temp : Half
  /-- UVA[15:0], R36. -/
  uva : Half
  /-- UVB[15:0], R36. -/
  uvb : Half
  /-- COMP1[15:0], R36. -/
  comp1 : Half
  /-- COMP2[15:0], R36. -/
  comp2 : Half
  /-- LIGHT[15:0], R37. -/
  light : Half
  /-- The diagnostic counters, R38. -/
  diag : Diag
  /-- FRAME, R39: frame byte i at address 0x80 + i. -/
  frame : Memory
  /-- S.phy, R43, R44. -/
  phy : Phy
  /-- S.ci, the completion indicator, R45. -/
  ci : Bool
  /-- S.ackstat, R46. -/
  ackstat : Bool
  /-- S.rxbuf, R47. -/
  rxbuf : Byte
  /-- S.fs, R48. -/
  fs : Framing
  /-- S.seq, R49. -/
  seq : Sequencer
  /-- S.pins, R51. -/
  pins : Pins
  /-- S.trace, R52, oldest record first. -/
  trace : List Record
  /-- S.initd, R53. -/
  initd : Bool
  /-- S.arg, the operand latch, R54. -/
  argLatch : Word
  /-- The MODEL's own: the host's pending accesses, next first (log 3). -/
  host : List HostOp
  /-- The MODEL's own: what the host's last read returned (log 4). -/
  rdata : Word
  /-- The MODEL's own: the next turns, as given from outside (log 1). -/
  sched : List Turn
  /-- The MODEL's own: how many turns were taken freely once `sched` was empty (log 1). -/
  turns : Nat
  /-- The MODEL's own: ENV's answers (log 2). -/
  env : Env
deriving DecidableEq, Repr

/-- The machine has no fault: "Nothing in this core is fatal" (60_exceptions.md R185), every command ends and nothing
is stuck (R122, R203). No constructor, so no step can answer one (log 14; safe). -/
inductive Fault
deriving DecidableEq, Repr

/-- Why a command has no meaning in this model. -/
inductive Refusal where
  /-- Raised by an arm of `exec` whose instruction has no meaning yet; safe. No arm of this model raises it. -/
  | notModelled (mnemonic : String)
deriving DecidableEq, Repr

/-- Right after power-on reset, R59 and 70_reset_and_hazards.md R205, with STRAP sampled into LADDR (log 10). The
model's own fields hold nothing (logs 1 to 4); scl_gpio_level, to which R59 gives no value, is low (DESIGN CHOICE, log 8). -/
def State.reset : State where
  ctrl := ⟨false, Config.UV_IT_DEFAULT, Config.UV_HD_DEFAULT⟩
  status := ⟨false, false, false, false, false, false, false, false, false, .none⟩
  arg := 0
  cmd := 0
  res := 0
  clkHz := 0
  laddr := if Config.STRAP then Config.LIGHT_ADDR_HI else Config.LIGHT_ADDR_LO
  cnt := 0
  nodeType := 0
  uid0 := 0
  uid1 := 0
  swver := 0
  batt := 0
  temp := 0
  uva := 0
  uvb := 0
  comp1 := 0
  comp2 := 0
  light := 0
  diag := ⟨0, 0, 0, 0⟩
  frame := []
  phy := ⟨none, false⟩
  ci := false
  ackstat := false
  rxbuf := 0x00
  fs := .idle
  seq := .idle
  pins := ⟨.released, false, .released⟩
  trace := []
  initd := false
  argLatch := 0
  host := []
  rdata := 0
  sched := []
  turns := 0
  env := ⟨[], [], [], [], 0⟩

end Sys2Proof.Machine
end

