-- ==== Sys2Proof/Machine/Ops.lean ====
section
/-! DEFINITION. The named operations over State: the FRAME memory, the trace, ENV's draws, CmdError and its clearing, the
PHY, and the sequencer's launch and advance. -/

namespace Sys2Proof.Machine

/-! ### The FRAME memory (10_state.md R39) -/

/-- The byte at an address; an unlisted address reads as `Memory.unlisted`. -/
def Memory.read : Memory → Nat → Byte
  | [], _ => Memory.unlisted
  | c :: m, a => if c.1 = a then c.2 else Memory.read m a

/-- Store one byte, keeping the canonical form: storing what an unlisted address reads as removes the cell. -/
def Memory.write : Memory → Nat → Byte → Memory
  | [], a, b => if b = Memory.unlisted then [] else [(a, b)]
  | c :: m, a, b =>
    if a < c.1 then (if b = Memory.unlisted then c :: m else (a, b) :: c :: m)
    else if a = c.1 then (if b = Memory.unlisted then m else (a, b) :: m)
    else c :: Memory.write m a b

/-- Store bytes at rising addresses from `a` on. -/
def Memory.writeBytes : Memory → Nat → List Byte → Memory
  | m, _, [] => m
  | m, a, b :: bs => Memory.writeBytes (m.write a b) (a + 1) bs

/-- The `n` bytes from `a` on. -/
def Memory.readBytes (m : Memory) (a : Nat) : Nat → List Byte
  | 0 => []
  | n + 1 => m.read a :: Memory.readBytes m (a + 1) n

/-! ### The trace (R52) -/

/-- `Log(event)` with issue flags; `unrel` is the mark of every record logged while the PHY is poisoned (R52; DEDUCED for
the records that no PHY issue makes, log 7). -/
def logFlagged (e : Event) (unframed reopen : Bool) (s : State) : State :=
  { s with trace := s.trace ++ [⟨e, ⟨unframed, reopen, s.phy.poisoned⟩⟩] }

/-- `Log(event)` for a record that carries no issue flag. -/
def log (e : Event) (s : State) : State := logFlagged e false false s

/-- S.fs = Open. -/
def Framing.isOpen : Framing → Bool
  | .idle => false
  | .opened => true

/-- Whether a transfer is in flight. -/
def PhyOp.inFlight : Option PhyOp → Bool
  | none => false
  | some _ => true

/-! ### ENV's draws (20_memory.md R79; log 2) -/

/-- `draw Env.ack()`: the next answer given from outside, else a free value. -/
def Env.takeAck (e : Env) : Bool × Env :=
  match e.acks with
  | a :: rest => (a, { e with acks := rest })
  | [] => (Config.envAck e.drawn, { e with drawn := e.drawn + 1 })

/-- `draw Env.byte()`. -/
def Env.takeByte (e : Env) : Byte × Env :=
  match e.bytes with
  | b :: rest => (b, { e with bytes := rest })
  | [] => (Config.envByte e.drawn, { e with drawn := e.drawn + 1 })

/-- `draw Env.sda()`. -/
def Env.takeSda (e : Env) : Bool × Env :=
  match e.sdas with
  | v :: rest => (v, { e with sdas := rest })
  | [] => (Config.envSda e.drawn, { e with drawn := e.drawn + 1 })

/-- `draw bool`, the answer of a poll of a poisoned PHY (40_transport.md R105). -/
def Env.takePoll (e : Env) : Bool × Env :=
  match e.polls with
  | p :: rest => (p, { e with polls := rest })
  | [] => (Config.envPoll e.drawn, { e with drawn := e.drawn + 1 })

/-! ### Command errors (60_exceptions.md R185, R186, R191, R193) -/

/-- `raise CmdError(code)`, R186: the block's one exception. It saves the first code in ERRCODE; a second error while
ERR = 1 only sets ERR_OVF (R191). No pc is saved, no mode changes, no control moves (R192). -/
def raiseCmdError (code : ErrCode) (s : State) : State :=
  if s.status.err then { s with status.errOvf := true }
  else { s with status.err := true, status.errcode := code }

/-- The return from a CmdError, R193: the host's write to STATUS clears each of TMO (3), COLL (4), ERR (8), ERR_OVF (9)
and WWB (10) whose bit is 1, and ERRCODE with ERR (R25). -/
def clearStatus (v : Word) (s : State) : State :=
  { s with
    status.tmo := s.status.tmo && !v.getLsbD 3
    status.coll := s.status.coll && !v.getLsbD 4
    status.err := s.status.err && !v.getLsbD 8
    status.errOvf := s.status.errOvf && !v.getLsbD 9
    status.wwb := s.status.wwb && !v.getLsbD 10
    status.errcode := if v.getLsbD 8 then .none else s.status.errcode }

/-! ### The PHY (40_transport.md R105 to R109) -/

/-- `Collision(x)`, R108: the model stops tracking the PHY. -/
def collide (x : Collider) (s : State) : State :=
  { log (.collision x) s with
    phy := ⟨none, true⟩
    status.coll := true
    diag.coll := s.diag.coll + 1 }

/-- `PhyIssue(op)`, R107: hand a transfer to the PHY. -/
def phyIssue (op : PhyOp) (s : State) : State :=
  if s.phy.poisoned then logFlagged (.issue op) (!s.fs.isOpen) false s
  else if PhyOp.inFlight s.phy.pending then collide (.op op) s
  else { logFlagged (.issue op) (!s.fs.isOpen) false s with phy.pending := some op }

/-- The framing state a condition leaves, R107: Idle after STOP, else Open. -/
def Cond.framing : Cond → Framing
  | .start => .opened
  | .rstart => .opened
  | .stop => .idle

/-- The `unframed` flag of a condition, R52: RSTART or STOP issued while S.fs = Idle. -/
def Cond.unframed : Cond → Framing → Bool
  | .start, _ => false
  | .rstart, fs => !fs.isOpen
  | .stop, fs => !fs.isOpen

/-- The `reopen` flag of a condition, R52: START issued while S.fs = Open. -/
def Cond.reopen : Cond → Framing → Bool
  | .start, fs => fs.isOpen
  | .rstart, _ => false
  | .stop, _ => false

/-- The trace effect of a condition, R107: logged, or a collision on a busy PHY. -/
def emitCond (c : Cond) (s : State) : State :=
  if s.phy.poisoned then logFlagged (.cond c) (c.unframed s.fs) (c.reopen s.fs) s
  else if PhyOp.inFlight s.phy.pending then collide (.cond c) s
  else logFlagged (.cond c) (c.unframed s.fs) (c.reopen s.fs) s

/-- `PhyCond(c)`, R107: a condition is complete within its own step, and S.fs follows it in every case. -/
def phyCond (c : Cond) (s : State) : State := { emitCond c s with fs := c.framing }

/-- The PHY agent's step, R106: the transfer in flight completes. It does not run while nothing is in flight or while the
PHY is poisoned (R109). -/
def phyStep (s : State) : State :=
  if s.phy.poisoned then s
  else
    match s.phy.pending with
    | none => s
    | some (.tx _) =>
      log (.txdone s.env.takeAck.1)
        { s with phy.pending := none, ackstat := s.env.takeAck.1, ci := true, env := s.env.takeAck.2 }
    | some .rx =>
      log (.rxdone s.env.takeByte.1)
        { s with phy.pending := none, rxbuf := s.env.takeByte.1, env := s.env.takeByte.2 }
    | some (.ackdrv _) => log .ackdone { s with phy.pending := none }

/-- `Poll(IDLE)`, R105, and the state after the draw a poisoned PHY makes. -/
def pollIdle (s : State) : Bool × State :=
  if s.phy.poisoned then (s.env.takePoll.1, { s with env := s.env.takePoll.2 })
  else (!PhyOp.inFlight s.phy.pending, s)

/-- `Poll(CI)`, R105. -/
def pollCi (s : State) : Bool × State :=
  if s.phy.poisoned then (s.env.takePoll.1, { s with env := s.env.takePoll.2 })
  else (s.ci, s)

/-- `Obs(S.ackstat)`, R103 and R109: the latch, or a draw of one bit while poisoned. -/
def obsAck (s : State) : Bool × State :=
  if s.phy.poisoned then (s.env.takeAck.1, { s with env := s.env.takeAck.2 }) else (s.ackstat, s)

/-- `Obs(S.rxbuf)`, R103 and R109: the buffer, or a draw of one byte while poisoned. -/
def obsRx (s : State) : Byte × State :=
  if s.phy.poisoned then (s.env.takeByte.1, { s with env := s.env.takeByte.2 }) else (s.rxbuf, s)

/-- A bit as a register value, `zext_32`. -/
def bitWord (a : Bool) : Word := if a then 1 else 0

/-- `CAP_ACK(dst)`, R103: STATUS.ACK takes the observed bit, DIAG_NACK counts a NACK, RES takes it where dst = RES. -/
def captureAck (toRes : Bool) (s : State) : State :=
  { (obsAck s).2 with
    status.ack := (obsAck s).1
    diag.nack := if (obsAck s).1 then s.diag.nack + 1 else s.diag.nack
    res := if toRes then bitWord (obsAck s).1 else s.res }

/-! ### The sequencer (10_state.md R49, R50; 40_transport.md R101, R104) -/

/-- `run(op, prog, 0, 0, (0, 0))`, R101. -/
def Run.fresh (op : Instr) (prog : List MuOp) : Run := ⟨op, prog, 0, 0, 0, 0, false⟩

/-- The accepting half of the launch, R101: a command with an empty program leaves BUSY 0. -/
def launch (op : Instr) (prog : List MuOp) (s : State) : State :=
  match prog with
  | [] => s
  | _ :: _ => { s with seq := .run (Run.fresh op prog) }

/-- The launch of a command that needs S.initd = 1, R81 and R102: NOT_INIT while it is 0 (log 5). -/
def launchBus (op : Instr) (prog : List MuOp) (s : State) : State :=
  if s.initd then launch op prog s else raiseCmdError .notInit s

/-- `step <- n`, R50: when step reaches length(prog), S.seq becomes idle, so BUSY falls, in the same step. -/
def advanceTo (n : Nat) (r : Run) (s : State) : State :=
  if n < r.prog.length then { s with seq := .run { r with step := n, iter := 0 } } else { s with seq := .idle }

/-- `step <- step + 1`. -/
def advance (r : Run) (s : State) : State := advanceTo (r.step + 1) r s

/-- The record of an exhausted wait, R104. -/
def recordTimeout (s : State) : State := { s with status.tmo := true, diag.tmo := s.diag.tmo + 1 }

/-- One poll of a bounded wait, R104: seen, poll again, or exhausted; exhaustion is silent to the command. -/
def waitPoll (ok : Bool) (r : Run) (s : State) : State :=
  if ok then advance r s
  else if r.iter + 1 < Config.RETRY_MAX then { s with seq := .run { r with iter := r.iter + 1 } }
  else advance r (recordTimeout s)

end Sys2Proof.Machine
end

