-- ==== Sys2Proof/Machine/Flags.lean ====
section
/-! DEFINITION. The STATUS and CTRL words the host reads and writes (10_state.md R22 to R25). -/

namespace Sys2Proof.Machine

/-- "STATUS.BUSY = 1 exactly when S.seq is `run`", R49. -/
def State.busy (s : State) : Bool :=
  match s.seq with
  | .idle => false
  | .run _ => true

/-- The codes of STATUS.ERRCODE, 60_exceptions.md R187. -/
def ErrCode.code : ErrCode → BitVec 4
  | .none => 0
  | .illegalOpcode => 1
  | .reservedBits => 2
  | .notInit => 3
  | .badArg => 4
  | .badAccess => 5

/-- STATUS as the host reads it, R24: bits [31:17] read 0. -/
def statusWord (s : State) : Word :=
  0#15 ++ BitVec.ofBool s.fs.isOpen ++ ErrCode.code s.status.errcode ++ BitVec.ofBool s.status.frameValid
    ++ BitVec.ofBool s.status.wwb ++ BitVec.ofBool s.status.errOvf ++ BitVec.ofBool s.status.err
    ++ BitVec.ofBool s.status.recovered ++ BitVec.ofBool s.status.stuck ++ BitVec.ofBool s.phy.poisoned
    ++ BitVec.ofBool s.status.coll ++ BitVec.ofBool s.status.tmo ++ BitVec.ofBool s.status.ack
    ++ BitVec.ofBool s.initd ++ BitVec.ofBool s.busy

/-- CTRL as the host reads it, R22: bits [31:4] read 0. -/
def ctrlWord (c : Ctrl) : Word := 0#28 ++ BitVec.ofBool c.uvHd ++ c.uvIt ++ BitVec.ofBool c.mtCompat

/-- CTRL[3:0] from a written value, R23. -/
def ctrlOfWord (v : Word) : Ctrl := ⟨v.getLsbD 0, v.extractLsb' 1 2, v.getLsbD 3⟩

end Sys2Proof.Machine
end

