-- ==== Sys2Proof/Machine/Operands.lean ====
section
/-! DEFINITION. Operand assembly (30_encoding.md R83), byte sequences (00_scope.md R14), the bytes a micro-op sends, and
the values the adapters compute (41_light.md R146, R148, R150; 42_uv.md R160, R161). -/

namespace Sys2Proof.Machine

/-! ### Byte sequences (R14) -/

/-- `BE16(x) = [x[15:8], x[7:0]]`. -/
def be16 (x : Half) : List Byte := [x.extractLsb' 8 8, x.extractLsb' 0 8]

/-- `LE16(x) = [x[7:0], x[15:8]]`. -/
def le16 (x : Half) : List Byte := [x.extractLsb' 0 8, x.extractLsb' 8 8]

/-- `BE32(x)`. -/
def be32 (x : Word) : List Byte :=
  [x.extractLsb' 24 8, x.extractLsb' 16 8, x.extractLsb' 8 8, x.extractLsb' 0 8]

/-- The four bytes of a register in rising offset order (20_memory.md R60), UID byte order (R33). -/
def le32 (x : Word) : List Byte :=
  [x.extractLsb' 0 8, x.extractLsb' 8 8, x.extractLsb' 16 8, x.extractLsb' 24 8]

/-- `zeros(n)`. -/
def zeros (n : Nat) : List Byte := List.replicate n 0x00

/-! ### Operands of S.arg (R83) -/

/-- `S.arg[8k+7:8k]`. -/
def argByte (k : Nat) (s : State) : Byte := s.argLatch.extractLsb' (8 * k) 8

/-- INIT's `hz = S.arg[31:0]`. -/
def argWord (s : State) : Word := s.argLatch

/-- The read address of a pre-shifted address byte, `(A + 1) mod 256` (20_memory.md R69). -/
def readAddress (a : Byte) : Byte := a + 1

/-- The byte a TXGO sends, at the step it is issued. -/
def ByteSrc.eval : ByteSrc → Run → State → Byte
  | .lit b, _, _ => b
  | .arg k, _, s => argByte k s
  | .laddr, _, s => s.laddr
  | .t0, r, _ => r.t0
  | .t1, r, _ => r.t1
  | .succ b, r, s => readAddress (b.eval r s)

/-! ### Received values (20_memory.md R61) -/

/-- The light value, most significant byte first, R150: `(t[0] << 8) | t[1]`. -/
def lightValue (b1 b2 : Byte) : Half := b1 ++ b2

/-- A UV value, least significant byte first, R160: `(t[1] << 8) | t[0]`. -/
def uvValue (b1 b2 : Byte) : Half := b2 ++ b1

/-! ### Measurement time (41_light.md R146, R148) -/

/-- `(v >> 5) & 0x07`, the high three bits, R146. -/
def mtHiField (v : Byte) : Byte := (v >>> 5) &&& 0x07

/-- `v & 0x1F`, the low five bits, R146. -/
def mtLoField (v : Byte) : Byte := v &&& 0x1F

/-- `bool(v >> 5)`: the logical-AND defect of the source, R148. -/
def mtcHiField (v : Byte) : Byte := if v >>> 5 = 0 then 0 else 1

/-- `bool(v)`, R148. -/
def mtcLoField (v : Byte) : Byte := if v = 0 then 0 else 1

/-- The first measurement-time byte, selected by CTRL.MT_COMPAT, R147. -/
def mtHiByte (compat : Bool) (v : Byte) : Byte :=
  Config.MT_PREFIX_HI ||| (if compat then mtcHiField v else mtHiField v)

/-- The second measurement-time byte, R147. -/
def mtLoByte (compat : Bool) (v : Byte) : Byte :=
  Config.MT_PREFIX_LO ||| (if compat then mtcLoField v else mtLoField v)

/-! ### The UV configuration word (42_uv.md R161) -/

/-- `cfg = UV_IT_BITS[it] | (hd = 1 ? UV_HD_MASK : 0x00)`, for the device constants `p`. -/
def uvConfigWordOf (p : DeviceParams) (it : BitVec 2) (hd : Bool) : Byte :=
  p.uvItSel it ||| (if hd then p.uvHdMask else 0x00)

/-- The configuration word of this implementation, with CTRL.UV_IT and CTRL.UV_HD. -/
def uvConfigWord (it : BitVec 2) (hd : Bool) : Byte := uvConfigWordOf Config.device it hd

end Sys2Proof.Machine
end

