-- ==== Sys2Proof/Machine/Window.lean ====
section
/-! DEFINITION. The host register window (10_state.md R21 to R42; 20_memory.md R60, R64, R65): what a read returns and
what a write stores. -/

namespace Sys2Proof.Machine

/-- Offset of FRAME byte 0, R39. -/
def FRAME_BASE : Nat := 0x80

/-- The word offset of a register, R21. -/
def RegName.offset : RegName → Nat
  | .ctrl => 0x00
  | .status => 0x04
  | .arg => 0x08
  | .cmd => 0x0C
  | .res => 0x10
  | .clkHz => 0x14
  | .laddr => 0x18
  | .cnt => 0x1C
  | .nodeType => 0x20
  | .uid0 => 0x24
  | .uid1 => 0x28
  | .swver => 0x2C
  | .batt => 0x30
  | .temp => 0x34
  | .uva => 0x38
  | .uvb => 0x3C
  | .comp1 => 0x40
  | .comp2 => 0x44
  | .light => 0x48
  | .diagTmo => 0x4C
  | .diagNack => 0x50
  | .diagRecov => 0x54
  | .diagColl => 0x58
  | .frame k => 0x80 + 4 * k

/-- The register at a word offset, R21; `none` at a reserved offset (R40). -/
def regAt (off : Nat) : Option RegName :=
  match off with
  | 0x00 => some .ctrl
  | 0x04 => some .status
  | 0x08 => some .arg
  | 0x0C => some .cmd
  | 0x10 => some .res
  | 0x14 => some .clkHz
  | 0x18 => some .laddr
  | 0x1C => some .cnt
  | 0x20 => some .nodeType
  | 0x24 => some .uid0
  | 0x28 => some .uid1
  | 0x2C => some .swver
  | 0x30 => some .batt
  | 0x34 => some .temp
  | 0x38 => some .uva
  | 0x3C => some .uvb
  | 0x40 => some .comp1
  | 0x44 => some .comp2
  | 0x48 => some .light
  | 0x4C => some .diagTmo
  | 0x50 => some .diagNack
  | 0x54 => some .diagRecov
  | 0x58 => some .diagColl
  | 0x80 => some (.frame 0)
  | 0x84 => some (.frame 1)
  | 0x88 => some (.frame 2)
  | 0x8C => some (.frame 3)
  | 0x90 => some (.frame 4)
  | 0x94 => some (.frame 5)
  | 0x98 => some (.frame 6)
  | 0x9C => some (.frame 7)
  | 0xA0 => some (.frame 8)
  | 0xA4 => some (.frame 9)
  | 0xA8 => some (.frame 10)
  | 0xAC => some (.frame 11)
  | 0xB0 => some (.frame 12)
  | _ => none

/-- Word k of FRAME, R64: frame bytes 4k to 4k + 3, the lowest in bits [7:0]. -/
def frameWord (m : Memory) (k : Nat) : Word :=
  m.read (FRAME_BASE + 4 * k + 3) ++ m.read (FRAME_BASE + 4 * k + 2) ++ m.read (FRAME_BASE + 4 * k + 1)
    ++ m.read (FRAME_BASE + 4 * k)

/-- The 32-bit value of a register; bits above the width used read 0 (R42). -/
def readReg (r : RegName) (s : State) : Word :=
  match r with
  | .ctrl => ctrlWord s.ctrl
  | .status => statusWord s
  | .arg => s.arg
  | .cmd => s.cmd
  | .res => s.res
  | .clkHz => s.clkHz
  | .laddr => s.laddr.setWidth 32
  | .cnt => s.cnt
  | .nodeType => s.nodeType.setWidth 32
  | .uid0 => s.uid0
  | .uid1 => s.uid1
  | .swver => s.swver.setWidth 32
  | .batt => s.batt.setWidth 32
  | .temp => s.temp.setWidth 32
  | .uva => s.uva.setWidth 32
  | .uvb => s.uvb.setWidth 32
  | .comp1 => s.comp1.setWidth 32
  | .comp2 => s.comp2.setWidth 32
  | .light => s.light.setWidth 32
  | .diagTmo => s.diag.tmo
  | .diagNack => s.diag.nack
  | .diagRecov => s.diag.recov
  | .diagColl => s.diag.coll
  | .frame k => frameWord s.frame k

/-- The word at a word offset; a reserved offset reads 0 (R40). -/
def windowWord (s : State) (off : Nat) : Word :=
  match regAt off with
  | some r => readReg r s
  | none => 0

/-- The byte at an offset, R60: bits [8j+7:8j] of the word at 4k are the byte at 4k + j. -/
def windowByte (s : State) (off : Nat) : Byte := (windowWord s (off - off % 4)).extractLsb' (8 * (off % 4)) 8

/-- The access width in bytes. -/
def Width.bytes : Width → Nat
  | .byte => 1
  | .half => 2
  | .word => 4

/-- "naturally aligned (offset a multiple of the width)", R65. -/
def aligned (off : Byte) (width : Width) : Bool := off.toNat % Width.bytes width = 0

/-- `MemRead(off, n)`, R65: the addressed bytes, zero-extended; a misaligned read returns 0. -/
def hostReadValue (s : State) (off : Byte) (width : Width) : Word :=
  if aligned off width then
    match width with
    | .byte => (windowByte s off.toNat).setWidth 32
    | .half => (windowByte s (off.toNat + 1) ++ windowByte s off.toNat).setWidth 32
    | .word =>
      windowByte s (off.toNat + 3) ++ windowByte s (off.toNat + 2) ++ windowByte s (off.toNat + 1)
        ++ windowByte s off.toNat
  else 0

/-- What a 4-byte aligned write stores in a register other than CMD: RW registers keep their implemented bits (R42),
STATUS clears W1C bits (R25), read-only registers ignore it (R41). -/
def writeReg (r : RegName) (v : Word) (s : State) : State :=
  match r with
  | .ctrl => { s with ctrl := ctrlOfWord v }
  | .status => clearStatus v s
  | .arg => { s with arg := v }
  | .cmd => s
  | .res => s
  | .clkHz => s
  | .laddr => s
  | .cnt => { s with cnt := v }
  | .nodeType => { s with nodeType := v.setWidth 16 }
  | .uid0 => { s with uid0 := v }
  | .uid1 => { s with uid1 := v }
  | .swver => { s with swver := v.setWidth 8 }
  | .batt => { s with batt := v.setWidth 16 }
  | .temp => { s with temp := v.setWidth 16 }
  | .uva => { s with uva := v.setWidth 16 }
  | .uvb => { s with uvb := v.setWidth 16 }
  | .comp1 => { s with comp1 := v.setWidth 16 }
  | .comp2 => { s with comp2 := v.setWidth 16 }
  | .light => { s with light := v.setWidth 16 }
  | .diagTmo => s
  | .diagNack => s
  | .diagRecov => s
  | .diagColl => s
  | .frame _ => s

end Sys2Proof.Machine
end

