-- ==== Sys2Proof/Machine/Frame.lean ====
section
/-! DEFINITION. Frame assembly and the message counter: FR.BUILD, CNT.INC (43_frame.md). -/

namespace Sys2Proof.Machine

/-- Frame bytes 0..47, R171 and R172: every field big-endian, the unique address byte for byte. -/
def frameBody (s : State) : List Byte :=
  [BitVec.ofNat 8 Config.FRAME_LEN] ++ be16 s.nodeType ++ le32 s.uid0 ++ le32 s.uid1 ++ [s.swver] ++ be32 s.cnt
    ++ be16 s.batt ++ be16 s.temp ++ zeros 4
    ++ be16 s.uva ++ be16 s.uvb ++ be16 s.comp1 ++ be16 s.comp2 ++ be16 s.light ++ zeros 14

/-- The checksum, over the first CK_COVER bytes, R173 and R174. -/
def frameChecksum (s : State) : Half := Config.CHECKSUM16 ((frameBody s).take Config.CK_COVER)

/-- The 50 bytes of the frame: the checksum is placed low byte first at 48 and 49, R173. -/
def frameBytes (s : State) : List Byte := frameBody s ++ le16 (frameChecksum s)

/-- FR.BUILD's one step, R172: all 50 bytes are overwritten in place, from one snapshot of the registers. -/
def frameEffect (s : State) : State :=
  { s with frame := s.frame.writeBytes FRAME_BASE (frameBytes s), status.frameValid := true }

def frBuildProgram : List MuOp := [.set .frame]

/-- FR.BUILD, R172: accepted while S.initd = 0. -/
def execFrBuild (s : State) : Host.Outcome State Fault Refusal := .next (launch .frBuild frBuildProgram s)

/-- CNT.INC's one step, R176: modulo 2^32. -/
def cntIncEffect (s : State) : State := { s with cnt := s.cnt + 1 }

def cntIncProgram : List MuOp := [.set .cntInc]

/-- CNT.INC, R176: accepted while S.initd = 0. -/
def execCntInc (s : State) : Host.Outcome State Fault Refusal := .next (launch .cntInc cntIncProgram s)

end Sys2Proof.Machine
end

