-- ==== Sys2Proof/Machine/Transport.lean ====
section
/-! DEFINITION. The transport macros and the transport commands: NOP, INIT, DEINIT, START, RSTART, STOP, WRITE, READ,
RECOVER (40_transport.md). A meaning is the launch of the command's micro-op program (R101); Seq.lean runs it. -/

namespace Sys2Proof.Machine

/-! ### The transport macros (R103) -/

/-- `T_START = [WAIT_IDLE, COND(START)]`. -/
def tStart : List MuOp := [.waitIdle, .cond .start]

/-- `T_RSTART`. -/
def tRstart : List MuOp := [.waitIdle, .cond .rstart]

/-- `T_STOP`. -/
def tStop : List MuOp := [.waitIdle, .cond .stop]

/-- `T_WRITE(b, dst) = [CLR_CI, TXGO(b), WAIT_CI, CAP_ACK(dst)]`. -/
def tWrite (b : ByteSrc) (toRes : Bool) : List MuOp := [.clrCi, .txgo b, .waitCi, .capAck toRes]

/-- `T_READ(sa, dst) = [WAIT_IDLE, RXGO, WAIT_IDLE, CAP_RX(dst), ACKGO(sa = 1 ? 0 : 1)]`. -/
def tRead (sa : Bool) (dst : RxDst) : List MuOp := [.waitIdle, .rxgo, .waitIdle, .capRx dst, .ackgo (!sa)]

/-! ### Recovery (R119) -/

/-- One recovery pulse: a low phase and a high phase of T_PHASE each. -/
def recoveryPulse : List MuOp :=
  [.sclDrive false, .delay Config.T_PHASE, .sclDrive true, .delay Config.T_PHASE]

/-- `n` recovery pulses. -/
def recoveryPulses : Nat → List MuOp
  | 0 => []
  | n + 1 => recoveryPulse ++ recoveryPulses n

/-- `after(REC_FINISH)` of a recovery segment that begins its program: 1 + 1 + 1 + 4 * RECOVERY_PULSES + 1 + 1 + 1. -/
def recoveryLength : Nat := 3 + 4 * Config.RECOVERY_PULSES + 3

/-- The recovery segment, at the beginning of the programs of RECOVER and UV.READ. -/
def recovery : List MuOp :=
  [.sdaSample, .brHigh recoveryLength, .sclTake] ++ recoveryPulses Config.RECOVERY_PULSES
    ++ [.sclRestore, .sdaSample, .recFinish]

/-! ### NOP (R112) -/

def nopProgram : List MuOp := []

/-- NOP, R86 and R112: accepted, with an empty program. -/
def execNop (s : State) : Host.Outcome State Fault Refusal := .next (launch .nop nopProgram s)

/-! ### INIT (R110) -/

/-- `if S.phy.pending != none or S.fs = Open then Log(ABANDON)`, R110 and R111. -/
def abandonOpen (s : State) : State :=
  if PhyOp.inFlight s.phy.pending || s.fs.isOpen then log .abandon s else s

/-- INIT's one step, R110. -/
def initEffect (s : State) : State :=
  { abandonOpen s with
    phy := ⟨none, false⟩
    ci := false
    ackstat := false
    rxbuf := 0x00
    fs := .idle
    pins := { s.pins with sclOwner := .phy, sdaOwner := .phy }
    clkHz := argWord s
    initd := true }

def initProgram : List MuOp := [.set .init]

/-- INIT, R110: BAD_ARG where the target clock is 0 (R81, R187), whatever S.initd is. -/
def execInit (s : State) : Host.Outcome State Fault Refusal :=
  if argWord s = 0 then .next (raiseCmdError .badArg s) else .next (launch .init initProgram s)

/-! ### DEINIT (R111) -/

/-- DEINIT's one step, R111: CLK_HZ, S.ackstat, S.rxbuf and every data register keep their values. -/
def deinitEffect (s : State) : State :=
  { abandonOpen s with
    phy := ⟨none, false⟩
    ci := false
    fs := .idle
    pins := { s.pins with sclOwner := .released, sdaOwner := .released }
    initd := false }

def deinitProgram : List MuOp := [.set .deinit]

/-- DEINIT, R111: accepted whether or not S.initd = 1. -/
def execDeinit (s : State) : Host.Outcome State Fault Refusal := .next (launch .deinit deinitProgram s)

/-! ### START, RSTART, STOP (R113, R114, R117) -/

def startProgram : List MuOp := tStart

/-- START, R113. -/
def execStart (s : State) : Host.Outcome State Fault Refusal := .next (launchBus .start startProgram s)

def rstartProgram : List MuOp := tRstart

/-- RSTART, R114. -/
def execRstart (s : State) : Host.Outcome State Fault Refusal := .next (launchBus .rstart rstartProgram s)

def stopProgram : List MuOp := tStop

/-- STOP, R117. -/
def execStop (s : State) : Host.Outcome State Fault Refusal := .next (launchBus .stop stopProgram s)

/-! ### WRITE (R115) -/

/-- `T_WRITE(b, RES)` with `b = S.arg[7:0]`. -/
def writeProgram : List MuOp := tWrite (.arg 0) true

/-- WRITE, R115: it does not wait for idle before it issues. -/
def execWrite (s : State) : Host.Outcome State Fault Refusal := .next (launchBus .write writeProgram s)

/-! ### READ (R116) -/

/-- `T_READ(sa, RES)` with `sa = F`. -/
def readProgram (sendAck : Bool) : List MuOp := tRead sendAck .res

/-- READ, R116. -/
def execRead (sendAck : Bool) (s : State) : Host.Outcome State Fault Refusal :=
  .next (launchBus (.read sendAck) (readProgram sendAck) s)

/-! ### RECOVER (R119) -/

/-- The bit SDA_SAMPLE draws, and the state after it. -/
def sampleSda (s : State) : Bool × State :=
  (s.env.takeSda.1, log (.sda s.env.takeSda.1) { s with env := s.env.takeSda.2 })

/-- SCL_TAKE: a transfer in flight collides; SCL becomes a GPIO. -/
def takeScl (s : State) : State :=
  let s1 := if !s.phy.poisoned && PhyOp.inFlight s.phy.pending then collide .recover s else s
  log (.sclctl .gpio) { s1 with pins.sclOwner := .gpio }

/-- SCL_DRIVE(level). -/
def driveScl (level : Bool) (s : State) : State := log (.scl level) { s with pins.sclLevel := level }

/-- Who gets SCL back, R119: the PHY, or nobody while S.initd = 0. -/
def restoredOwner (s : State) : SclOwner := if s.initd then .phy else .released

/-- SCL_RESTORE. -/
def restoreScl (s : State) : State :=
  log (.sclctl (restoredOwner s)) { s with pins.sclOwner := restoredOwner s }

/-- BR_HIGH's register writes, where the first sample was high. -/
def foundHigh (s : State) : State := { s with status.recovered := false, status.stuck := false }

/-- REC_FINISH, from the second sample `s1`: STUCK, RECOVERED, DIAG_RECOV, and an open transaction is abandoned. -/
def finishRecovery (s1 : Bool) (s : State) : State :=
  let s2 := if s.fs.isOpen then log .abandon s else s
  { s2 with
    status.stuck := !s1
    status.recovered := true
    diag.recov := s.diag.recov + 1
    fs := .idle }

def recoverProgram : List MuOp := recovery

/-- RECOVER, R119: accepted whether or not S.initd = 1 (R102). -/
def execRecover (s : State) : Host.Outcome State Fault Refusal := .next (launch .recover recoverProgram s)

end Sys2Proof.Machine
end

