-- ==== Sys2Proof/Machine/Light.lean ====
section
/-! DEFINITION. The light sensor adapter commands: L.SETADDR, L.SETMODE, L.SETMT, L.READ (41_light.md). -/

namespace Sys2Proof.Machine

/-- `T_LCMD(c)`, R142: every byte to the light sensor is framed by its own START, address and STOP. -/
def tLcmd (c : ByteSrc) : List MuOp := tStart ++ tWrite .laddr false ++ tWrite c false ++ tStop

/-- `T_LREAD`, R149: no register select, no repeated start; the first byte is acknowledged, the second not. -/
def tLread : List MuOp :=
  tStart ++ tWrite (.succ .laddr) false ++ tRead true .t0 ++ tRead false .t1 ++ tStop

/-! ### L.SETADDR (R141) -/

/-- L.SETADDR's one step: it overrides the strapped address. -/
def laddrEffect (highVariant : Bool) (s : State) : State :=
  { s with laddr := if highVariant then Config.LIGHT_ADDR_HI else Config.LIGHT_ADDR_LO }

def lSetAddrProgram (highVariant : Bool) : List MuOp := [.set (.laddr highVariant)]

/-- L.SETADDR, R141: accepted while S.initd = 0. -/
def execLSetAddr (highVariant : Bool) (s : State) : Host.Outcome State Fault Refusal :=
  .next (launch (.lSetAddr highVariant) (lSetAddrProgram highVariant) s)

/-! ### L.SETMODE (R144) -/

/-- `T_LCMD(c)` with `c = S.arg[7:0]`, not checked against R143's set. -/
def lSetModeProgram : List MuOp := tLcmd (.arg 0)

/-- L.SETMODE, R144. -/
def execLSetMode (s : State) : Host.Outcome State Fault Refusal := .next (launchBus .lSetMode lSetModeProgram s)

/-! ### L.SETMT (R147) -/

/-- `SET(t[0] <- ...)`: CTRL.MT_COMPAT is read by the micro-op. -/
def mtHiEffect (r : Run) (s : State) : Run := { r with t0 := mtHiByte s.ctrl.mtCompat (argByte 0 s) }

/-- `SET(t[1] <- ...)`. -/
def mtLoEffect (r : Run) (s : State) : Run := { r with t1 := mtLoByte s.ctrl.mtCompat (argByte 0 s) }

/-- Two SETs and two transactions, the high byte first. -/
def lSetMtProgram : List MuOp := [.set .mtHi, .set .mtLo] ++ tLcmd .t0 ++ tLcmd .t1

/-- L.SETMT, R147. -/
def execLSetMt (s : State) : Host.Outcome State Fault Refusal := .next (launchBus .lSetMt lSetMtProgram s)

/-! ### L.READ (R150) -/

/-- L.READ's last step: LIGHT and RES take the two received bytes, most significant first. -/
def lightEffect (r : Run) (s : State) : State :=
  { s with light := lightValue r.t0 r.t1, res := (lightValue r.t0 r.t1).setWidth 32 }

def lReadProgram : List MuOp := tLread ++ [.set .light]

/-- L.READ, R150. -/
def execLRead (s : State) : Host.Outcome State Fault Refusal := .next (launchBus .lRead lReadProgram s)

end Sys2Proof.Machine
end

