-- ==== Sys2Proof/Machine/Uv.lean ====
section
/-! DEFINITION. The UV sensor adapter commands: UV.WRCFG, UV.RDREG, UV.START, UV.READ (42_uv.md). -/

namespace Sys2Proof.Machine

/-- `T_UVWR(a, r, lo, hi)`, R156. -/
def tUvwr (a r lo hi : ByteSrc) : List MuOp :=
  tStart ++ tWrite a false ++ tWrite r false ++ tWrite lo false ++ tWrite hi false ++ tStop

/-- `T_UVRD(a, r)`, R157: the register select and the read are one transaction, joined by RSTART (R158). -/
def tUvrd (a r : ByteSrc) : List MuOp :=
  tStart ++ tWrite a false ++ tWrite r false ++ tRstart ++ tWrite (.succ a) false
    ++ tRead true .t0 ++ tRead false .t1 ++ tStop

/-- The SET after T_UVRD, R159 and R164: RES takes the value, least significant byte first, and so does the named UV
result register. -/
def uvValEffect (dst : Option UvReg) (r : Run) (s : State) : State :=
  let v := uvValue r.t0 r.t1
  let s1 := { s with res := v.setWidth 32 }
  match dst with
  | none => s1
  | some .uva => { s1 with uva := v }
  | some .uvb => { s1 with uvb := v }
  | some .comp1 => { s1 with comp1 := v }
  | some .comp2 => { s1 with comp2 := v }

/-! ### UV.WRCFG (R156) -/

/-- `a = S.arg[7:0]`, `r = S.arg[15:8]`, `lo = S.arg[23:16]`, `hi = S.arg[31:24]` (R83). -/
def uvWrCfgProgram : List MuOp := tUvwr (.arg 0) (.arg 1) (.arg 2) (.arg 3)

/-- UV.WRCFG, R156. -/
def execUvWrCfg (s : State) : Host.Outcome State Fault Refusal := .next (launchBus .uvWrCfg uvWrCfgProgram s)

/-! ### UV.RDREG (R159) -/

def uvRdRegProgram : List MuOp := tUvrd (.arg 0) (.arg 1) ++ [.set (.uvVal none)]

/-- UV.RDREG, R159. -/
def execUvRdReg (s : State) : Host.Outcome State Fault Refusal := .next (launchBus .uvRdReg uvRdRegProgram s)

/-! ### UV.START (R162) -/

/-- `SET(t[0] <- cfg)`: CTRL.UV_IT and CTRL.UV_HD are read by the micro-op. -/
def uvCfgEffect (r : Run) (s : State) : Run := { r with t0 := uvConfigWord s.ctrl.uvIt s.ctrl.uvHd }

/-- cfg is data-low and 0x00 is data-high. -/
def uvStartProgram : List MuOp :=
  [.set .uvCfg] ++ tUvwr (.lit Config.UV_DEV_ADDR) (.lit Config.UV_REG_CONF) .t0 (.lit 0x00)

/-- UV.START, R162. -/
def execUvStart (s : State) : Host.Outcome State Fault Refusal := .next (launchBus .uvStart uvStartProgram s)

/-! ### UV.READ (R164) -/

/-- One of UV.READ's four register reads. -/
def uvReadOne (reg : Byte) (dst : UvReg) : List MuOp :=
  tUvrd (.lit Config.UV_DEV_ADDR) (.lit reg) ++ [.set (.uvVal (some dst))]

/-- The recovery segment, then UVA, UVB, COMP1, COMP2. -/
def uvReadProgram : List MuOp :=
  recovery ++ uvReadOne Config.UV_REG_UVA .uva ++ uvReadOne Config.UV_REG_UVB .uvb
    ++ uvReadOne Config.UV_REG_COMP1 .comp1 ++ uvReadOne Config.UV_REG_COMP2 .comp2

/-- UV.READ, R164: the reads run whatever the recovery found. -/
def execUvRead (s : State) : Host.Outcome State Fault Refusal := .next (launchBus .uvRead uvReadProgram s)

end Sys2Proof.Machine
end

