-- ==== Sys2Proof/Machine/Seq.lean ====
section
/-! DEFINITION. The command sequencer SEQ: every command's program, what each micro-op does in one SEQ step
(40_transport.md R103, R104, R119), and the SEQ agent's step (10_state.md R50). -/

namespace Sys2Proof.Machine

/-- `program(op, F)`, R101. -/
def program : Instr → List MuOp
  | .nop => nopProgram
  | .init => initProgram
  | .deinit => deinitProgram
  | .start => startProgram
  | .rstart => rstartProgram
  | .stop => stopProgram
  | .write => writeProgram
  | .read sendAck => readProgram sendAck
  | .recover => recoverProgram
  | .lSetAddr highVariant => lSetAddrProgram highVariant
  | .lSetMode => lSetModeProgram
  | .lSetMt => lSetMtProgram
  | .lRead => lReadProgram
  | .uvWrCfg => uvWrCfgProgram
  | .uvRdReg => uvRdRegProgram
  | .uvStart => uvStartProgram
  | .uvRead => uvReadProgram
  | .frBuild => frBuildProgram
  | .cntInc => cntIncProgram

/-- "INIT?", the commands that need S.initd = 1, R82 and R102. -/
def needsInit : Instr → Bool
  | .nop => false
  | .init => false
  | .deinit => false
  | .start => true
  | .rstart => true
  | .stop => true
  | .write => true
  | .read _ => true
  | .recover => false
  | .lSetAddr _ => false
  | .lSetMode => true
  | .lSetMt => true
  | .lRead => true
  | .uvWrCfg => true
  | .uvRdReg => true
  | .uvStart => true
  | .uvRead => true
  | .frBuild => false
  | .cntInc => false

/-- `SET(...)`: the register writes the command's rule names. -/
def SetOp.apply : SetOp → Run → State → State
  | .init, _, s => initEffect s
  | .deinit, _, s => deinitEffect s
  | .laddr hv, _, s => laddrEffect hv s
  | .mtHi, _, s => s
  | .mtLo, _, s => s
  | .light, r, s => lightEffect r s
  | .uvCfg, _, s => s
  | .uvVal dst, r, s => uvValEffect dst r s
  | .frame, _, s => frameEffect s
  | .cntInc, _, s => cntIncEffect s

/-- The temporaries a SET writes. -/
def SetOp.temps : SetOp → Run → State → Run
  | .init, r, _ => r
  | .deinit, r, _ => r
  | .laddr _, r, _ => r
  | .mtHi, r, s => mtHiEffect r s
  | .mtLo, r, s => mtLoEffect r s
  | .light, r, _ => r
  | .uvCfg, r, s => uvCfgEffect r s
  | .uvVal _, r, _ => r
  | .frame, r, _ => r
  | .cntInc, r, _ => r

/-- `CAP_RX(dst)`, R103: the run record and the state after it. -/
def captureRx (dst : RxDst) (r : Run) (s : State) : Run × State :=
  match dst with
  | .res => (r, { (obsRx s).2 with res := (obsRx s).1.setWidth 32 })
  | .t0 => ({ r with t0 := (obsRx s).1 }, (obsRx s).2)
  | .t1 => ({ r with t1 := (obsRx s).1 }, (obsRx s).2)

/-- One SEQ step of a micro-op: for a wait, one poll. -/
def MuOp.run (u : MuOp) (r : Run) (s : State) : State :=
  match u with
  | .waitIdle => waitPoll (pollIdle s).1 r (pollIdle s).2
  | .waitCi => waitPoll (pollCi s).1 r (pollCi s).2
  | .clrCi => advance r { s with ci := false }
  | .cond c => advance r (phyCond c s)
  | .txgo b => advance r (phyIssue (.tx (b.eval r s)) s)
  | .rxgo => advance r (phyIssue .rx s)
  | .ackgo a => advance r (phyIssue (.ackdrv a) s)
  | .capAck toRes => advance r (captureAck toRes s)
  | .capRx dst => advance (captureRx dst r s).1 (captureRx dst r s).2
  | .set e => advance (e.temps r s) (e.apply r s)
  | .sdaSample => advance { r with sda := (sampleSda s).1 } (sampleSda s).2
  | .brHigh target => if r.sda then advanceTo target r (foundHigh s) else advance r s
  | .sclTake => advance r (takeScl s)
  | .sclDrive level => advance r (driveScl level s)
  | .delay _ => advance r s
  | .sclRestore => advance r (restoreScl s)
  | .recFinish => advance r (finishRecovery r.sda s)

/-- The SEQ agent's step: the current micro-op of the running command; an idle sequencer does nothing. A step index past
the program's end is none that R50 allows; it ends the command (DESIGN CHOICE, log 18). -/
def seqStep (s : State) : State :=
  match s.seq with
  | .idle => s
  | .run r =>
    match r.prog[r.step]? with
    | some u => u.run r s
    | none => { s with seq := .idle }

end Sys2Proof.Machine
end

