-- ==== Sys2Proof/Machine/Dispatch.lean ====
section
/-! DEFINITION. One arm per command: what the launch of an accepted command word does (40_transport.md R101). -/

namespace Sys2Proof.Machine

def exec (i : Instr) (s : State) : Host.Outcome State Fault Refusal :=
  match i with
  | .nop => Sys2Proof.Machine.execNop s
  | .init => Sys2Proof.Machine.execInit s
  | .deinit => Sys2Proof.Machine.execDeinit s
  | .start => Sys2Proof.Machine.execStart s
  | .rstart => Sys2Proof.Machine.execRstart s
  | .stop => Sys2Proof.Machine.execStop s
  | .write => Sys2Proof.Machine.execWrite s
  | .read sendAck => Sys2Proof.Machine.execRead sendAck s
  | .recover => Sys2Proof.Machine.execRecover s
  | .lSetAddr highVariant => Sys2Proof.Machine.execLSetAddr highVariant s
  | .lSetMode => Sys2Proof.Machine.execLSetMode s
  | .lSetMt => Sys2Proof.Machine.execLSetMt s
  | .lRead => Sys2Proof.Machine.execLRead s
  | .uvWrCfg => Sys2Proof.Machine.execUvWrCfg s
  | .uvRdReg => Sys2Proof.Machine.execUvRdReg s
  | .uvStart => Sys2Proof.Machine.execUvStart s
  | .uvRead => Sys2Proof.Machine.execUvRead s
  | .frBuild => Sys2Proof.Machine.execFrBuild s
  | .cntInc => Sys2Proof.Machine.execCntInc s

end Sys2Proof.Machine
end

