-- ==== Sys2Proof/Machine/HostPort.lean ====
section
/-! DEFINITION. The HOST agent: its accesses of the register window (20_memory.md R62, R65, R67; 60_exceptions.md R189)
and the launch of a command by a write to CMD (10_state.md R27; 40_transport.md R101). -/

namespace Sys2Proof.Machine

/-- The launch's first two lines, R27 and R101: CMD holds the written word, S.arg holds ARG. -/
def latchCommand (w : Word) (s : State) : State := { s with cmd := w, argLatch := s.arg }

/-- A 4-byte write of `w` to CMD while BUSY = 0, R101: latch, decode, then run the launch or raise CmdError. -/
def writeCmd (w : Word) (s : State) : Host.Outcome State Fault Refusal :=
  match decodeWord w with
  | .error code => .next (raiseCmdError code (latchCommand w s))
  | .ok i => exec i (latchCommand w s)

/-- `MemWrite(off, n, v)` with the priorities of R189: WWB while busy (R62), then BAD_ACCESS (R65), then the write. -/
def hostWrite (off : Byte) (width : Width) (v : Word) (s : State) : Host.Outcome State Fault Refusal :=
  if s.busy then .next { s with status.wwb := true }
  else
    match width with
    | .byte => .next (raiseCmdError .badAccess s)
    | .half => .next (raiseCmdError .badAccess s)
    | .word =>
      if aligned off .word then
        match regAt off.toNat with
        | none => .next s
        | some .cmd => writeCmd v s
        | some r => .next (writeReg r v s)
      else .next (raiseCmdError .badAccess s)

/-- `MemRead(off, n)`: the value goes to the host; nothing of the block changes (R66). -/
def hostRead (off : Byte) (width : Width) (s : State) : State := { s with rdata := hostReadValue s off width }

/-- One poll of WAITDONE, R93: `LW STATUS`, and on to the next access once BUSY reads 0. -/
def hostPoll (rest : List HostOp) (s : State) : State :=
  let s1 := { s with rdata := statusWord s }
  if (statusWord s).getLsbD 0 then s1 else { s1 with host := rest }

/-- The HOST agent's step: its next pending access. A host with none pending makes no access. -/
def hostStep (s : State) : Host.Outcome State Fault Refusal :=
  match s.host with
  | [] => .next s
  | .write off width v :: rest => hostWrite off width v { s with host := rest }
  | .read off width :: rest => .next (hostRead off width { s with host := rest })
  | .waitDone :: rest => .next (hostPoll rest s)
  | .waitMs _ :: rest => .next { s with host := rest }

end Sys2Proof.Machine
end

