-- ==== Sys2Proof/Machine/Agents.lean ====
section
/-! DEFINITION. Whose turn it is, and one turn of each agent (00_scope.md R12; 20_memory.md R72). -/

namespace Sys2Proof.Machine

/-- Power-on reset asserted by the platform, 70_reset_and_hazards.md R205: every piece of the machine's state takes its
reset value. What stands outside the block goes on: the host's pending accesses and last read, the schedule, ENV's
answers (DESIGN CHOICE, log 13). -/
def powerOn (s : State) : State :=
  { State.reset with host := s.host, rdata := s.rdata, sched := s.sched, turns := s.turns, env := s.env }

/-- One whole step of one agent. -/
def agentStep (t : Turn) (s : State) : Host.Outcome State Fault Refusal :=
  match t with
  | .host => hostStep s
  | .seq => .next (seqStep s)
  | .phy => .next (phyStep s)
  | .reset => .next (powerOn s)

/-- Whose turn it is: the next of the schedule given from outside, else a free value (R72, R106; log 1). -/
def whoseTurn (s : State) : Turn :=
  match s.sched with
  | t :: _ => t
  | [] => Config.turnAt s.turns

/-- The schedule after one turn is taken from it. -/
def turnTaken (s : State) : State :=
  match s.sched with
  | _ :: rest => { s with sched := rest }
  | [] => { s with turns := s.turns + 1 }

/-- `n`-byte access of word `w` to CMD, the one access that fetches a command. -/
def launchAccess (nbits w : Nat) : HostOp := .write 0x0C .word (BitVec.ofNat 32 (w % 2 ^ nbits))

/-- `s` with a host write of the command word next in the host's pending accesses, the sequencer idle (a write to CMD is
a launch only while BUSY = 0) and the next turn the host's. -/
def placeCommand (s : State) (nbits w : Nat) : State :=
  { s with host := launchAccess nbits w :: s.host, sched := .host :: s.sched, seq := .idle }

end Sys2Proof.Machine
end

