-- ==== Sys2Proof/Machine/Step.lean ====
section
/-! DEFINITION. The machine's step: one whole step of the agent whose turn it is (20_memory.md R72). -/

namespace Sys2Proof.Machine

/-- One step of the machine. -/
def step (s : State) : Host.Outcome State Fault Refusal := agentStep (whoseTurn s) (turnTaken s)

/-- `s` with the command of the table's number `w` of `nbits` bits where the next step fetches it: the host's next
access is its write to CMD, SEQ is idle, and the next turn is the host's (log 3). -/
def State.withFetchWord (s : State) (nbits w : Nat) : State := placeCommand s nbits w

end Sys2Proof.Machine
end

