-- ==== Sys2Proof/Machine/Asm.lean ====
section
/-! DEFINITION. The assembler: how a program's lines expand to the host's accesses (30_encoding.md R91 to R93), the
disassembly of a launched command (R94), and the reference programs of the source's boot and cycle (70_reset_and_hazards.md
R208 and R210, 43_frame.md R180). -/

namespace Sys2Proof.Machine

/-- The command a line spells, R91. -/
def Command.instr : Command → Instr
  | .nop => .nop
  | .init _ => .init
  | .deinit => .deinit
  | .start => .start
  | .rstart => .rstart
  | .stop => .stop
  | .write _ => .write
  | .read ack => .read ack
  | .recover => .recover
  | .lSetAddr hi => .lSetAddr hi
  | .lSetMode _ => .lSetMode
  | .lSetMt _ => .lSetMt
  | .lRead => .lRead
  | .uvWrCfg _ _ _ _ => .uvWrCfg
  | .uvRdReg _ _ => .uvRdReg
  | .uvStart => .uvStart
  | .uvRead => .uvRead
  | .frBuild => .frBuild
  | .cntInc => .cntInc

/-- The argword of a command line, R92; `none` where the command has no operand. -/
def Command.argword : Command → Option Nat
  | .init hz => some hz
  | .write b => some b
  | .lSetMode c => some c
  | .lSetMt v => some v
  | .uvWrCfg a r lo hi => some (hi * 2 ^ 24 + lo * 2 ^ 16 + r * 2 ^ 8 + a)
  | .uvRdReg a r => some (r * 2 ^ 8 + a)
  | .nop => none
  | .deinit => none
  | .start => none
  | .rstart => none
  | .stop => none
  | .read _ => none
  | .recover => none
  | .lSetAddr _ => none
  | .lRead => none
  | .uvStart => none
  | .uvRead => none
  | .frBuild => none
  | .cntInc => none

/-- The word of a command line, R92. -/
def Command.word (c : Command) : Word := encode (Command.instr c)

/-- `SW <reg>, <value>`: a 4-byte write at the register's offset. -/
def storeWord (r : RegName) (v : Nat) : HostOp := .write (BitVec.ofNat 8 (RegName.offset r)) .word (BitVec.ofNat 32 v)

/-- The writes of a command line without WAITDONE, R92 and CALLNW of R93. -/
def Command.launchOps (c : Command) : List HostOp :=
  match Command.argword c with
  | some v => [storeWord .arg v, .write 0x0C .word (Command.word c)]
  | none => [.write 0x0C .word (Command.word c)]

/-- A command line: its writes, then WAITDONE, R92. -/
def Command.ops (c : Command) : List HostOp := Command.launchOps c ++ [.waitDone]

/-- The word of four UID bytes, lowest first, SETUID of R93. -/
def uidWord (b0 b1 b2 b3 : Nat) : Nat := b3 * 2 ^ 24 + b2 * 2 ^ 16 + b1 * 2 ^ 8 + b0

/-- The host operations of a well-formed line, R91 to R93. -/
def Line.ops : Line → List HostOp
  | .sw r v => [storeWord r v]
  | .lw r => [.read (BitVec.ofNat 8 (RegName.offset r)) .word]
  | .lb off => [.read (BitVec.ofNat 8 off) .byte]
  | .cmd c => Command.ops c
  | .waitDone => [.waitDone]
  | .clrStat => [storeWord .status 0x718]
  | .waitMs n => [.waitMs n]
  | .probe a => Command.ops .start ++ Command.ops (.write a) ++ Command.ops .stop
  | .setUid b0 b1 b2 b3 b4 b5 b6 b7 =>
    [storeWord .uid0 (uidWord b0 b1 b2 b3), storeWord .uid1 (uidWord b4 b5 b6 b7)]
  | .callNw c => Command.launchOps c

/-- A program's host operations; `none` is an assembly error, R91. -/
def assemble : List Line → Option (List HostOp)
  | [] => some []
  | l :: rest =>
    if l.wellFormed then
      match assemble rest with
      | some ops => some (Line.ops l ++ ops)
      | none => none
    else none

/-- The command line that a launched word and its operand latch stand for, R83 and R94. -/
def disassemble (w argw : Word) : Option Command :=
  match decodeWord w with
  | .error _ => none
  | .ok i =>
    let b (k : Nat) : Nat := (argw.extractLsb' (8 * k) 8).toNat
    match i with
    | .nop => some .nop
    | .init => some (.init argw.toNat)
    | .deinit => some .deinit
    | .start => some .start
    | .rstart => some .rstart
    | .stop => some .stop
    | .write => some (.write (b 0))
    | .read ack => some (.read ack)
    | .recover => some .recover
    | .lSetAddr hi => some (.lSetAddr hi)
    | .lSetMode => some (.lSetMode (b 0))
    | .lSetMt => some (.lSetMt (b 0))
    | .lRead => some .lRead
    | .uvWrCfg => some (.uvWrCfg (b 0) (b 1) (b 2) (b 3))
    | .uvRdReg => some (.uvRdReg (b 0) (b 1))
    | .uvStart => some .uvStart
    | .uvRead => some .uvRead
    | .frBuild => some .frBuild
    | .cntInc => some .cntInc

/-- `MT_COMPAT | UV_IT << 1 | UV_HD << 3`, R208 step 1. -/
def bootCtrlWord (c : BootCtrl) : Nat := c.mtCompat.toNat + 2 * c.uvIt.val + 8 * c.uvHd.toNat

/-- The line of an optional step: none where the host leaves it out. -/
def optionalLine {α : Type} (f : α → Line) : Option α → List Line
  | some a => [f a]
  | none => []

/-- R208 steps 2 and 3, in either order. -/
def bootBusLines (p : BootPlan) : List Line :=
  if p.recoverFirst then [.cmd .recover, .cmd (.init p.clockHz)] else [.cmd (.init p.clockHz), .cmd .recover]

/-- SETUID of a unique address. -/
def NodeUid.line (u : NodeUid) : Line := .setUid u.b0 u.b1 u.b2 u.b3 u.b4 u.b5 u.b6 u.b7

/-- The boot sequence, R208 steps 1 to 8. -/
def bootLines (p : BootPlan) : List Line :=
  optionalLine (fun c => .sw .ctrl (bootCtrlWord c)) p.ctrl
    ++ bootBusLines p
    ++ optionalLine (fun hi => .cmd (.lSetAddr hi)) p.lightAddr
    ++ [.cmd .uvStart, .cmd (.lSetMode Config.LIGHT_CMD_CONT_H.toNat)]
    ++ optionalLine (fun v => .cmd (.lSetMt v)) p.mtValue
    ++ [.sw .nodeType p.nodeType, NodeUid.line p.uid, .sw .swver p.swver]

/-- The reference acquisition program, R154, R168 and R180, with the 180 ms obligation of R213. -/
def acquireLines (battery temperature : Nat) : List Line :=
  [ .cmd (.lSetMode Config.LIGHT_CMD_CONT_H.toNat), .waitMs Config.T_CONV_MIN, .cmd .uvRead, .cmd .lRead,
    .sw .batt battery, .sw .temp temperature, .cmd .frBuild, .cmd .cntInc ]

/-- One duty cycle's part of the block, R210: Configuring, Acquiring, and PoweringDown's DEINIT (60_exceptions.md R201). -/
def dutyCycleLines (p : BootPlan) (battery temperature : Nat) : List Line :=
  bootLines p ++ acquireLines battery temperature ++ [.cmd .deinit]

end Sys2Proof.Machine
end

