-- ==== Sys2Proof/Safety.lean ====
section
/-! DEFINITION. The terms the claims use: runs of turns, the quiet bus, trace records, and what every state that the
machine can be in satisfies. -/

namespace Sys2Proof.Machine

/-! ### Runs -/

/-- The agents of `ts` take their turns, in that order, from `s` (20_memory.md R72). -/
def runTurns : List Turn → State → Host.Outcome State Fault Refusal
  | [], s => .next s
  | t :: ts, s =>
    match agentStep t s with
    | .next s' => runTurns ts s'
    | .fault r => .fault r
    | .refused r => .refused r

/-- The eager schedule of 95_test_vectors.md for `n` SEQ steps: after each SEQ step the PHY completes what it issued. -/
def eager : Nat → List Turn
  | 0 => []
  | n + 1 => .seq :: .phy :: eager n

/-- `n` SEQ steps with no PHY step between them: a PHY that never completes (40_transport.md R106). -/
def stalled (n : Nat) : List Turn := List.replicate n .seq

/-- No command runs, no transfer is in flight, and the PHY is not poisoned. -/
abbrev State.quiet (s : State) : Prop := s.seq = .idle ∧ s.phy = ⟨none, false⟩

/-! ### Trace records (10_state.md R52) -/

/-- A record that carries no flag. -/
def plain (e : Event) : Record := ⟨e, ⟨false, false, false⟩⟩

/-- A record of an issue made while S.fs is `fs` on a PHY that is not poisoned. -/
def issued (fs : Framing) (o : PhyOp) : Record := ⟨.issue o, ⟨!fs.isOpen, false, false⟩⟩

/-- A record of a condition emitted while S.fs is `fs` on a PHY that is not poisoned. -/
def emitted (fs : Framing) (c : Cond) : Record := ⟨.cond c, ⟨c.unframed fs, c.reopen fs, false⟩⟩

/-- `TX(b), TXDONE(a)` in an open transaction. -/
def wrote (b : Byte) (a : Bool) : List Record := [plain (.issue (.tx b)), plain (.txdone a)]

/-- `RX, RXDONE(b), ACKDRV(x), ACKDONE` in an open transaction, x = 0 where the byte is acknowledged. -/
def received (b : Byte) (sendAck : Bool) : List Record :=
  [plain (.issue .rx), plain (.rxdone b), plain (.issue (.ackdrv (!sendAck))), plain .ackdone]

/-- How many NACKs a list of acknowledge bits holds, as DIAG_NACK counts them (10_state.md R38). -/
def nackCount (acks : List Bool) : Word := BitVec.ofNat 32 (acks.count true)

/-- The records of a light command transaction after its START, 41_light.md R142. -/
def lightCommandTail (addr c : Byte) (a1 a2 : Bool) : List Record :=
  wrote addr a1 ++ wrote c a2 ++ [plain (.cond .stop)]

/-- The records of T_UVWR after its START, 42_uv.md R156. -/
def uvWriteTail (a r lo hi : Byte) (a1 a2 a3 a4 : Bool) : List Record :=
  wrote a a1 ++ wrote r a2 ++ wrote lo a3 ++ wrote hi a4 ++ [plain (.cond .stop)]

/-- The records of T_UVRD after its START, 42_uv.md R157: one RSTART and one STOP, the last record. -/
def uvReadTail (a r : Byte) (a1 a2 a3 : Bool) (b1 b2 : Byte) : List Record :=
  wrote a a1 ++ wrote r a2 ++ [plain (.cond .rstart)] ++ wrote (a + 1) a3 ++ received b1 true ++ received b2 false
    ++ [plain (.cond .stop)]

/-- `n` recovery pulses on the trace, 40_transport.md R119. -/
def pulseRecords : Nat → List Record
  | 0 => []
  | n + 1 => plain (.scl false) :: plain (.scl true) :: pulseRecords n

/-- The records of a recovery that issues pulses, but for the closing ABANDON of an open transaction. -/
def recoveryRecords (owner : SclOwner) (s1 : Bool) : List Record :=
  [plain (.sda false), plain (.sclctl .gpio)] ++ pulseRecords Config.RECOVERY_PULSES
    ++ [plain (.sclctl owner), plain (.sda s1)]

/-- A record as it is logged while the PHY is poisoned (R52; log 7). -/
def Record.unreliable (x : Record) : Record := { x with flags.unrel := true }

/-- The kinds of bus operation a command issues. -/
inductive BusKind where
  | start
  | rstart
  | stop
  | tx
  | rx
  | ackdrv
deriving DecidableEq, Repr

/-- The kind of a condition. -/
def Cond.kind : Cond → BusKind
  | .start => .start
  | .rstart => .rstart
  | .stop => .stop

/-- The kind of a transfer. -/
def PhyOp.kind : PhyOp → BusKind
  | .tx _ => .tx
  | .rx => .rx
  | .ackdrv _ => .ackdrv

/-- The bus operation a record shows as issued, in a collision or not; other records show none. -/
def Record.kind (x : Record) : Option BusKind :=
  match x.event with
  | .cond c => some (Cond.kind c)
  | .issue o => some (PhyOp.kind o)
  | .collision (.cond c) => some (Cond.kind c)
  | .collision (.op o) => some (PhyOp.kind o)
  | .collision .recover => none
  | .abandon => none
  | .sclctl _ => none
  | .scl _ => none
  | .sda _ => none
  | .txdone _ => none
  | .rxdone _ => none
  | .ackdone => none

/-- The bus operation a micro-op issues. -/
def MuOp.kind : MuOp → Option BusKind
  | .cond c => some (Cond.kind c)
  | .txgo _ => some .tx
  | .rxgo => some .rx
  | .ackgo _ => some .ackdrv
  | .waitIdle => none
  | .waitCi => none
  | .clrCi => none
  | .capAck _ => none
  | .capRx _ => none
  | .set _ => none
  | .sdaSample => none
  | .brHigh _ => none
  | .sclTake => none
  | .sclDrive _ => none
  | .delay _ => none
  | .sclRestore => none
  | .recFinish => none

/-- The bus operations issued in a trace, in order. -/
def issuedKinds (tr : List Record) : List BusKind := tr.filterMap Record.kind

/-- The bus operations of a program, in order. -/
def programKinds (prog : List MuOp) : List BusKind := prog.filterMap MuOp.kind

/-- A record of SCL driven low: one recovery pulse. -/
def Record.isPulse (x : Record) : Bool := decide (x.event = .scl false)

/-- The recovery pulses of a trace. -/
def pulseCount (tr : List Record) : Nat := tr.countP Record.isPulse

/-- The command running, if there is one. -/
def State.running (s : State) : Option Instr :=
  match s.seq with
  | .idle => none
  | .run r => some r.op

/-! ### What holds of every state the machine can be in -/

/-- S.seq runs a command's own program, inside it, with the poll count below RETRY_MAX (10_state.md R49). -/
def SequencerOk (s : State) : Prop :=
  ∀ r, s.seq = .run r → r.prog = program r.op ∧ r.step < r.prog.length ∧ r.iter < Config.RETRY_MAX

/-- The PHY and the lines. A poisoned PHY tracks no transfer (R108). Without INIT the PHY does nothing, no transaction is
open and neither line is the PHY's (R51), and no command that needs INIT runs (R102). After INIT SDA is the PHY's and SCL
is the PHY's or, in a recovery, a GPIO. -/
def BusOk (s : State) : Prop :=
  (s.phy.poisoned = true → s.phy.pending = none) ∧
  (s.initd = false → s.phy = ⟨none, false⟩ ∧ s.fs = .idle ∧ s.pins.sdaOwner = .released ∧ s.pins.sclOwner ≠ .phy ∧
    ∀ i, s.running = some i → needsInit i = false) ∧
  (s.initd = true → s.pins.sdaOwner = .phy ∧ s.pins.sclOwner ≠ .released)

/-- SCL is a GPIO only between SCL_TAKE and SCL_RESTORE of a recovery (40_transport.md R119). -/
def SclOk (s : State) : Prop :=
  s.pins.sclOwner = .gpio →
    ∃ r, s.seq = .run r ∧ (r.op = .recover ∨ r.op = .uvRead) ∧ 3 ≤ r.step ∧ r.step < 4 + 4 * Config.RECOVERY_PULSES

/-- The recorded conditions: ERRCODE names an error exactly while ERR = 1 (R24, R187), STUCK only with RECOVERED (R119),
RES[31:16] = 0 (R21, R28). -/
def RecordOk (s : State) : Prop :=
  (s.status.err = false ↔ s.status.errcode = .none) ∧
  (s.status.stuck = true → s.status.recovered = true) ∧
  s.res.extractLsb' 16 16 = 0#16

/-- Frame byte i, as the memory holds it (10_state.md R39). -/
def frameByte (s : State) (i : Nat) : Byte := s.frame.read (FRAME_BASE + i)

/-- The frame as a byte sequence. -/
def frameSeq (s : State) : List Byte := s.frame.readBytes FRAME_BASE Config.FRAME_LEN

/-- The FRAME buffer: its memory is canonical and lists no byte outside the 50; before the first FR.BUILD it is all 0x00
(R59); afterwards it is a frame with the length byte, the reserved zeros and the checksum of 43_frame.md R175. -/
def FrameOk (s : State) : Prop :=
  s.frame.wf ∧
  (∀ c ∈ s.frame, FRAME_BASE ≤ c.1 ∧ c.1 < FRAME_BASE + Config.FRAME_LEN) ∧
  (s.status.frameValid = false → s.frame = []) ∧
  (s.status.frameValid = true →
    frameByte s 0 = 50 ∧ (∀ i, 20 ≤ i → i < 24 → frameByte s i = 0) ∧ (∀ i, 34 ≤ i → i < 48 → frameByte s i = 0) ∧
      frameByte s 49 ++ frameByte s 48 = Config.CHECKSUM16 (s.frame.readBytes FRAME_BASE Config.CK_COVER))

end Sys2Proof.Machine
end

