-- ==== Sys2Proof/Certificates/Slice0/Obligations.lean ====
section
/-! DEFINITION. The statements for the provers. Each is about the machine and every state that meets its hypotheses; no
statement fixes a free value. Where a statement fixes a schedule (the eager one of 95_test_vectors.md, or a PHY that never
completes) it says so; the statements on every schedule are those over `agentStep`, `step` and lists of turns. How the
schedule, ENV's answers, the host's accesses and its last read stand in State is the model's choice (logs 1 to 4). -/

open Sys2Proof Sys2Proof.Machine

/-! ### Command words -/

/-- 30_encoding.md R80 to R82: a word is accepted exactly where it is a command's encoding, so every command has one word
and every word at most one command. -/
def Obligations.DecodeAcceptsExactlyEncodings : Prop :=
  ∀ (w : Word) (i : Instr), decodeWord w = .ok i ↔ w = encode i

/-- R94: the opcode table's rows and the decoder agree on every word, and no word hits two rows. -/
def Obligations.TableRowsAgreeWithDecoder : Prop :=
  (∀ (w : Word) (m : String),
    (∃ i, decodeWord w = .ok i ∧ i.mnemonic = m) ↔ ∃ row ∈ opcodeTable, row.mnemonic = m ∧ row.hits w = true) ∧
  ∀ (w : Word), ∀ row ∈ opcodeTable, ∀ row' ∈ opcodeTable, row.hits w = true → row'.hits w = true → row = row'

/-- R83, R92: from the word and the argword of a well-formed command line, every operand at every value, the command line
is read back. -/
def Obligations.AssembledCommandReadsBack : Prop :=
  ∀ (c : Command) (a : Word), c.wellFormed = true → (∀ v, Command.argword c = some v → a = BitVec.ofNat 32 v) →
    disassemble (Command.word c) a = some c

/-- R92's word column, all 21 words written out, each decoding to its line's command; some of them read as words of the opcode
table; and a word of the unassigned opcode 0x09 with F = 1, which R81 and R82 reject. -/
def Obligations.WrittenOutWordsDecode : Prop :=
  (∀ p ∈ [((0x00000000 : Word), Instr.nop), (0x00000001, .init), (0x00000002, .deinit), (0x00000003, .start),
      (0x00000004, .rstart), (0x00000005, .stop), (0x00000006, .write), (0x00000107, .read true), (0x00000007, .read false),
      (0x00000008, .recover), (0x00000010, .lSetAddr false), (0x00000110, .lSetAddr true), (0x00000011, .lSetMode),
      (0x00000012, .lSetMt), (0x00000013, .lRead), (0x00000020, .uvWrCfg), (0x00000021, .uvRdReg), (0x00000022, .uvStart),
      (0x00000023, .uvRead), (0x00000030, .frBuild), (0x00000031, .cntInc)],
    decodeWord p.1 = .ok p.2) ∧
  decodeWord 0x00000000 = .ok .nop ∧ decodeWord 0x00000001 = .ok .init ∧ decodeWord 0x00000107 = .ok (.read true) ∧
  decodeWord 0x00000007 = .ok (.read false) ∧ decodeWord 0x00000110 = .ok (.lSetAddr true) ∧
  decodeWord 0x00000020 = .ok .uvWrCfg ∧ decodeWord 0x00000031 = .ok .cntInc ∧
  decodeTableWord 32 0x00000013 = some .lRead ∧ decodeTableWord 32 0x00000109 = none

/-- R85: an unassigned opcode, then a nonzero reserved field or an unused F, is rejected; CMD holds the word, S.arg holds
ARG, and ERR with ERRCODE (or ERR_OVF where ERR = 1 already) is all that changes: no micro-op runs, BUSY stays 0 and
nothing is logged. -/
def Obligations.RejectedWordOnlyRecordsError : Prop :=
  ∀ (w : Word) (s : State),
    let n := (opcField w).toNat
    let unassigned := (0x09 ≤ n ∧ n ≤ 0x0F) ∨ (0x14 ≤ n ∧ n ≤ 0x1F) ∨ (0x24 ≤ n ∧ n ≤ 0x2F) ∨ 0x32 ≤ n
    let latched : State := { s with cmd := w, argLatch := s.arg }
    (unassigned → writeCmd w s = .next (raiseCmdError .illegalOpcode latched)) ∧
    (¬ unassigned → (rsvField w ≠ 0 ∨ (flagField w = true ∧ n ≠ 0x07 ∧ n ≠ 0x10)) →
      writeCmd w s = .next (raiseCmdError .reservedBits latched)) ∧
    ∀ c, raiseCmdError c latched = { latched with
      status :=
        if s.status.err then { s.status with errOvf := true } else { s.status with err := true, errcode := c } }

/-! ### The step and the host port -/

/-- A step is a whole step of the agent whose turn it is (how the turn is chosen: log 1); a HOST turn whose access writes a
command word to CMD while BUSY = 0 runs that command, after CMD and S.arg are latched (R27, R101). -/
def Obligations.StepRunsDecodedCommand : Prop :=
  (∀ (s : State) (t : Turn) (ts : List Turn), s.sched = t :: ts → step s = agentStep t { s with sched := ts }) ∧
  (∀ (s : State) (w : Word) (i : Instr) (rest : List HostOp), whoseTurn s = .host → s.seq = .idle →
    s.host = .write 0x0C .word w :: rest → decodeWord w = .ok i →
    step s = exec i { turnTaken s with host := rest, cmd := w, argLatch := s.arg }) ∧
  ∀ (s : State) (w : Word) (i : Instr), decodeWord w = .ok i →
    step (s.withFetchWord 32 w.toNat) = exec i { s with seq := .idle, cmd := w, argLatch := s.arg }

/-- "Nothing in the block is stuck" (R203): every step answers a next state. -/
def Obligations.EveryStepAnswersNext : Prop :=
  ∀ s : State, ∃ s', step s = .next s'

/-- 20_memory.md R62: a host write while BUSY = 1 changes no register and sets WWB, at every offset and width; a host read
is performed whatever BUSY is. That the read's value stands in `rdata` is the model's choice (log 4). -/
def Obligations.HostWriteWhileBusyIsDropped : Prop :=
  ∀ (s : State) (off : Byte) (width : Width) (v : Word) (rest : List HostOp),
    (s.busy = true →
      agentStep .host { s with host := .write off width v :: rest } =
        .next { s with host := rest, status := { s.status with wwb := true } }) ∧
    agentStep .host { s with host := .read off width :: rest } =
      .next { s with host := rest, rdata := hostReadValue s off width }

/-- 20_memory.md R60, R65: writes that are not 4 bytes wide at an aligned offset raise BAD_ACCESS and store nothing; a
misaligned read returns 0; an aligned read returns the addressed bytes, the lowest offset in bits [7:0]. -/
def Obligations.AccessWidthsAndByteOrder : Prop :=
  ∀ s : State,
    (s.busy = false → ∀ (off : Byte) (width : Width) (v : Word) (rest : List HostOp),
      (width ≠ .word ∨ off.toNat % 4 ≠ 0) →
      agentStep .host { s with host := .write off width v :: rest } =
        .next (raiseCmdError .badAccess { s with host := rest })) ∧
    (∀ (off : Byte) (width : Width), off.toNat % Width.bytes width ≠ 0 → hostReadValue s off width = 0) ∧
    (∀ (off : Byte) (width : Width), off.toNat % Width.bytes width = 0 →
      (∀ j, j < Width.bytes width →
        (hostReadValue s off width).extractLsb' (8 * j) 8 = windowByte s (off.toNat + j)) ∧
      (∀ j, Width.bytes width ≤ j → j < 4 → (hostReadValue s off width).extractLsb' (8 * j) 8 = 0)) ∧
    ∀ k j, k < 64 → j < 4 → windowByte s (4 * k + j) = (windowWord s (4 * k)).extractLsb' (8 * j) 8

/-- R21 to R38: what stands at each register's offset in the window, zero-extended. At 0x04, R24: where each STATUS field
stands; ERRCODE holds the code R187 gives to each error's name. At 0x00, R22: CTRL's fields. At every other offset of R21's
table the named register, which other statements speak of by its field of State. (FRAME: R64's statement; reserved offsets:
R40's.) -/
def Obligations.StatusWordShowsEveryField : Prop :=
  ∀ s : State,
    let w := windowWord s 0x04
    let c := windowWord s 0x00
    (c.getLsbD 0 = s.ctrl.mtCompat ∧ c.extractLsb' 1 2 = s.ctrl.uvIt ∧ c.getLsbD 3 = s.ctrl.uvHd ∧
      c.extractLsb' 4 28 = 0) ∧
    (windowWord s 0x08 = s.arg ∧ windowWord s 0x0C = s.cmd ∧ windowWord s 0x10 = s.res ∧ windowWord s 0x14 = s.clkHz ∧
      windowWord s 0x18 = s.laddr.setWidth 32 ∧ windowWord s 0x1C = s.cnt ∧
      windowWord s 0x20 = s.nodeType.setWidth 32 ∧ windowWord s 0x24 = s.uid0 ∧ windowWord s 0x28 = s.uid1 ∧
      windowWord s 0x2C = s.swver.setWidth 32 ∧ windowWord s 0x30 = s.batt.setWidth 32 ∧
      windowWord s 0x34 = s.temp.setWidth 32 ∧ windowWord s 0x38 = s.uva.setWidth 32 ∧
      windowWord s 0x3C = s.uvb.setWidth 32 ∧ windowWord s 0x40 = s.comp1.setWidth 32 ∧
      windowWord s 0x44 = s.comp2.setWidth 32 ∧ windowWord s 0x48 = s.light.setWidth 32 ∧
      windowWord s 0x4C = s.diag.tmo ∧ windowWord s 0x50 = s.diag.nack ∧ windowWord s 0x54 = s.diag.recov ∧
      windowWord s 0x58 = s.diag.coll) ∧
    w.getLsbD 0 = s.busy ∧ w.getLsbD 1 = s.initd ∧ w.getLsbD 2 = s.status.ack ∧ w.getLsbD 3 = s.status.tmo ∧
    w.getLsbD 4 = s.status.coll ∧ w.getLsbD 5 = s.phy.poisoned ∧ w.getLsbD 6 = s.status.stuck ∧
    w.getLsbD 7 = s.status.recovered ∧ w.getLsbD 8 = s.status.err ∧ w.getLsbD 9 = s.status.errOvf ∧
    w.getLsbD 10 = s.status.wwb ∧ w.getLsbD 11 = s.status.frameValid ∧
    w.extractLsb' 12 4 = ErrCode.code s.status.errcode ∧
    w.extractLsb' 12 4 =
      (match s.status.errcode with
        | .none => 0
        | .illegalOpcode => 1
        | .reservedBits => 2
        | .notInit => 3
        | .badArg => 4
        | .badAccess => 5) ∧
    w.getLsbD 16 = decide (s.fs = .opened) ∧
    w.extractLsb' 17 15 = 0

/-- R25: a write to STATUS while BUSY = 0 clears each W1C bit whose written bit is 1, ERRCODE with ERR, and nothing
else. -/
def Obligations.StatusWriteClearsNamedBits : Prop :=
  ∀ (s : State) (v : Word) (rest : List HostOp), s.busy = false →
    agentStep .host { s with host := .write 0x04 .word v :: rest } =
      .next { s with
        host := rest
        status := { s.status with
          tmo := s.status.tmo && !v.getLsbD 3
          coll := s.status.coll && !v.getLsbD 4
          err := s.status.err && !v.getLsbD 8
          errOvf := s.status.errOvf && !v.getLsbD 9
          wwb := s.status.wwb && !v.getLsbD 10
          errcode := if v.getLsbD 8 then .none else s.status.errcode } }

/-- R40, R41: reserved offsets read 0 and ignore writes, with no error; writes to the read-only registers and to STATUS's
read-only bits are ignored, with no error (ERRCODE moves only where the write clears ERR). That a read's value stands in
`rdata` is the model's choice (log 4). -/
def Obligations.ReservedAndReadOnlyIgnoreWrites : Prop :=
  (∀ (s : State) (off : Byte) (width : Width) (rest : List HostOp),
    (0x5C ≤ off.toNat ∧ off.toNat < 0x80) ∨ 0xB4 ≤ off.toNat →
    agentStep .host { s with host := .read off width :: rest } = .next { s with host := rest, rdata := 0 }) ∧
  (∀ (s : State) (off : Byte) (v : Word) (rest : List HostOp), s.busy = false → off.toNat % 4 = 0 →
    (0x10 ≤ off.toNat ∧ off.toNat < 0x1C) ∨ 0x4C ≤ off.toNat →
    agentStep .host { s with host := .write off .word v :: rest } = .next { s with host := rest }) ∧
  ∀ (s : State) (v : Word) (rest : List HostOp), s.busy = false →
    ∃ t, agentStep .host { s with host := .write 0x04 .word v :: rest } = .next t ∧
      ∀ k, k ≠ 3 → k ≠ 4 → k ≠ 8 → k ≠ 9 → k ≠ 10 → (12 ≤ k → k < 16 → v.getLsbD 8 = false) →
        (windowWord t 0x04).getLsbD k = (windowWord s 0x04).getLsbD k

/-- R42 with R21's widths: a read/write register keeps the written value's used bits, reads 0 above them, and no other
offset of the window changes. -/
def Obligations.ReadWriteRegistersKeepUsedBits : Prop :=
  ∀ p ∈ [(0x00, 4), (0x08, 32), (0x1C, 32), (0x20, 16), (0x24, 32), (0x28, 32), (0x2C, 8), (0x30, 16), (0x34, 16),
      (0x38, 16), (0x3C, 16), (0x40, 16), (0x44, 16), (0x48, 16)],
    ∀ (s : State) (v : Word) (rest : List HostOp), s.busy = false →
      ∃ t, agentStep .host { s with host := .write (BitVec.ofNat 8 p.1) .word v :: rest } = .next t ∧
        (∀ k, k < 32 → (windowWord t p.1).getLsbD k = (decide (k < p.2) && v.getLsbD k)) ∧
        ∀ off, off ≠ p.1 → windowWord t off = windowWord s off

/-- 20_memory.md R64: the window's view of FRAME; frame bytes 50 and 51 are 0. -/
def Obligations.FrameWindowIsLittleEndian : Prop :=
  ∀ s : State, FrameOk s →
    (∀ m, m < 13 →
      windowWord s (0x80 + 4 * m) =
        frameByte s (4 * m + 3) ++ frameByte s (4 * m + 2) ++ frameByte s (4 * m + 1) ++ frameByte s (4 * m)) ∧
    frameByte s 50 = 0 ∧ frameByte s 51 = 0 ∧ ∀ i, i < 50 → windowByte s (0x80 + i) = frameByte s i

/-- 60_exceptions.md R191: a second CmdError while ERR = 1 sets ERR_OVF and keeps ERRCODE; clearing ERR clears ERRCODE;
one write of 0x300 clears both. -/
def Obligations.SecondCmdErrorKeepsFirstCode : Prop :=
  ∀ (s : State) (c : ErrCode),
    (s.status.err = false → raiseCmdError c s = { s with status := { s.status with err := true, errcode := c } }) ∧
    (s.status.err = true → raiseCmdError c s = { s with status := { s.status with errOvf := true } }) ∧
    (clearStatus 0x100 s).status = { s.status with err := false, errcode := .none } ∧
    (clearStatus 0x200 s).status = { s.status with errOvf := false } ∧
    (clearStatus 0x300 s).status = { s.status with err := false, errOvf := false, errcode := .none }

/-- 60_exceptions.md R189: the order in which a host write's errors are reported. -/
def Obligations.CmdErrorPriority : Prop :=
  ∀ (s : State) (off : Byte) (width : Width) (v : Word),
    (s.busy = true → hostWrite off width v s = .next { s with status := { s.status with wwb := true } }) ∧
    (s.busy = false → (width ≠ .word ∨ off.toNat % 4 ≠ 0) → hostWrite off width v s = .next (raiseCmdError .badAccess s)) ∧
    (s.busy = false →
      (opcodeMap (opcField v).toNat = none →
        hostWrite 0x0C .word v s = .next (raiseCmdError .illegalOpcode (latchCommand v s))) ∧
      (∀ row, opcodeMap (opcField v).toNat = some row → (rsvField v ≠ 0 ∨ (flagField v = true ∧ row.hasF = false)) →
        hostWrite 0x0C .word v s = .next (raiseCmdError .reservedBits (latchCommand v s))) ∧
      (∀ i, decodeWord v = .ok i → needsInit i = true → s.initd = false →
        hostWrite 0x0C .word v s = .next (raiseCmdError .notInit (latchCommand v s))) ∧
      (decodeWord v = .ok .init → s.arg = 0 →
        hostWrite 0x0C .word v s = .next (raiseCmdError .badArg (latchCommand v s)))) ∧
    (s.busy = false → s.initd = false →
      hostWrite 0x0C .word 0x109 s = .next (raiseCmdError .illegalOpcode (latchCommand 0x109 s)) ∧
      hostWrite 0x0C .word 0x103 s = .next (raiseCmdError .reservedBits (latchCommand 0x103 s)))

/-- 40_transport.md R102: the twelve bus commands are rejected with NOT_INIT while S.initd = 0; the seven others are
accepted whatever S.initd is (INIT with a nonzero target clock). -/
def Obligations.BusCommandsNeedInit : Prop :=
  ∀ s : State,
    (∀ (i : Instr) (sa : Bool), s.initd = false →
      i ∈ [Instr.start, .rstart, .stop, .write, .read sa, .lSetMode, .lSetMt, .lRead, .uvWrCfg, .uvRdReg, .uvStart, .uvRead] →
      exec i s = .next (raiseCmdError .notInit s)) ∧
    (∀ (i : Instr) (hv : Bool), i ∈ [Instr.nop, .deinit, .recover, .lSetAddr hv, .frBuild, .cntInc] →
      exec i s = .next (launch i (program i) s)) ∧
    (s.argLatch ≠ 0 → exec .init s = .next (launch .init (program .init) s)) ∧
    (s.argLatch = 0 → exec .init s = .next (raiseCmdError .badArg s))

/-- R101, R186: a launch changes S.seq and nothing else; a rejection changes ERR, ERR_OVF and ERRCODE and nothing else. So
every register, every byte of FRAME, the PHY, the lines and the trace are unchanged by every command's launch. -/
def Obligations.LaunchFrame : Prop :=
  ∀ (i : Instr) (s t : State), exec i s = .next t →
    t = { s with seq := t.seq } ∨
    t = { s with status := { s.status with
      err := t.status.err, errOvf := t.status.errOvf, errcode := t.status.errcode } }

/-! ### What each command does -/

/-- NOP, R112: accepted, changes nothing, BUSY stays 0. -/
def Obligations.NopChangesNothing : Prop :=
  ∀ s : State, exec .nop s = .next s

/-- INIT, R110, in one SEQ step, from any PHY state; ABANDON is logged where a transfer was in flight or a transaction was
open. -/
def Obligations.InitResetsThePhy : Prop :=
  ∀ s : State, s.seq = .idle → s.argLatch ≠ 0 →
    ∃ t, exec .init s = .next t ∧ t.busy = true ∧
      runTurns [.seq] t = .next { s with
        phy := ⟨none, false⟩
        ci := false
        ackstat := false
        rxbuf := 0
        fs := .idle
        pins := { s.pins with sclOwner := .phy, sdaOwner := .phy }
        clkHz := s.argLatch
        initd := true
        trace := s.trace ++
          (if s.phy.pending ≠ none ∨ s.fs = .opened then [⟨.abandon, ⟨false, false, s.phy.poisoned⟩⟩] else []) }

/-- DEINIT, R111, in one SEQ step, whatever S.initd is: CLK_HZ, S.ackstat, S.rxbuf and every register are kept. -/
def Obligations.DeinitReleasesTheBus : Prop :=
  ∀ s : State, s.seq = .idle →
    ∃ t, exec .deinit s = .next t ∧ t.busy = true ∧
      runTurns [.seq] t = .next { s with
        phy := ⟨none, false⟩
        ci := false
        fs := .idle
        pins := { s.pins with sclOwner := .released, sdaOwner := .released }
        initd := false
        trace := s.trace ++
          (if s.phy.pending ≠ none ∨ s.fs = .opened then [⟨.abandon, ⟨false, false, s.phy.poisoned⟩⟩] else []) }

/-- START, RSTART, STOP, R113, R114, R117, on a quiet bus: one poll and the condition, logged `reopen` or `unframed` by
S.fs. -/
def Obligations.ConditionsFrameTheBus : Prop :=
  ∀ s : State, s.quiet → s.initd = true →
    (∃ t, exec .start s = .next t ∧ t.busy = true ∧
      runTurns (eager 2) t = .next { s with
        fs := .opened, trace := s.trace ++ [⟨.cond .start, ⟨false, decide (s.fs = .opened), false⟩⟩] }) ∧
    (∃ t, exec .rstart s = .next t ∧ t.busy = true ∧
      runTurns (eager 2) t = .next { s with
        fs := .opened, trace := s.trace ++ [⟨.cond .rstart, ⟨decide (s.fs = .idle), false, false⟩⟩] }) ∧
    ∃ t, exec .stop s = .next t ∧ t.busy = true ∧
      runTurns (eager 2) t = .next { s with
        fs := .idle, trace := s.trace ++ [⟨.cond .stop, ⟨decide (s.fs = .idle), false, false⟩⟩] }

/-- WRITE, R115, on a quiet bus under the eager schedule: RES and STATUS.ACK take the device's bit, DIAG_NACK counts a
NACK. -/
def Obligations.WriteSendsByteAndLatchesAck : Prop :=
  ∀ (s : State) (a : Bool) (acks : List Bool), s.quiet → s.initd = true → s.env.acks = a :: acks →
    ∃ t, exec .write s = .next t ∧ t.busy = true ∧
      runTurns (eager 4) t = .next { s with
        ci := true
        ackstat := a
        res := if a then 1 else 0
        status := { s.status with ack := a }
        diag := { s.diag with nack := s.diag.nack + nackCount [a] }
        env := { s.env with acks := acks }
        trace := s.trace ++ [issued s.fs (.tx (s.argLatch.extractLsb' 0 8)), plain (.txdone a)] }

/-- READ, R116, on a quiet bus under the eager schedule: RES takes the byte; the master drives 0 where F = 1 and 1 where
F = 0; STATUS is not written. -/
def Obligations.ReadReceivesByteAndDrivesAck : Prop :=
  ∀ (s : State) (sendAck : Bool) (b : Byte) (bytes : List Byte), s.quiet → s.initd = true → s.env.bytes = b :: bytes →
    ∃ t, exec (.read sendAck) s = .next t ∧ t.busy = true ∧
      runTurns (eager 5) t = .next { s with
        rxbuf := b
        res := b.setWidth 32
        env := { s.env with bytes := bytes }
        trace := s.trace ++
          [issued s.fs .rx, plain (.rxdone b), issued s.fs (.ackdrv (!sendAck)), plain .ackdone] }

/-- RECOVER, R119, with no transfer in flight and whatever S.initd is: where SDA samples high, no pulse, no pin change;
where it samples low, exactly RECOVERY_PULSES pulses, SCL given back, a second sample, and STUCK from it. -/
def Obligations.RecoverPulsesAStuckBus : Prop :=
  ∀ (s : State) (sdas : List Bool), s.quiet →
    ∃ t, exec .recover s = .next t ∧ t.busy = true ∧
      (s.env.sdas = true :: sdas →
        runTurns (stalled 2) t = .next { s with
          status := { s.status with recovered := false, stuck := false }
          env := { s.env with sdas := sdas }
          trace := s.trace ++ [plain (.sda true)] }) ∧
      ∀ s1, s.env.sdas = false :: s1 :: sdas →
        runTurns (stalled 38) t = .next { s with
          status := { s.status with recovered := true, stuck := !s1 }
          diag := { s.diag with recov := s.diag.recov + 1 }
          fs := .idle
          pins := { s.pins with sclOwner := if s.initd then .phy else .released, sclLevel := true }
          env := { s.env with sdas := sdas }
          trace := s.trace ++ recoveryRecords (if s.initd then .phy else .released) s1 ++
            (if s.fs = .opened then [plain .abandon] else []) }

/-- L.SETADDR, R141: LADDR takes the chosen address in one SEQ step, whatever the bus does; RES and STATUS are kept. -/
def Obligations.LSetAddrSelectsTheAddress : Prop :=
  ∀ (s : State) (hv : Bool), s.seq = .idle →
    ∃ t, exec (.lSetAddr hv) s = .next t ∧ t.busy = true ∧
      runTurns [.seq] t = .next { s with laddr := if hv then Config.LIGHT_ADDR_HI else Config.LIGHT_ADDR_LO }

/-- L.SETMODE, R144, on a quiet bus under the eager schedule: one framed transaction, the address byte and exactly one
command byte; RES is unchanged; a NACK does not stop it. -/
def Obligations.LSetModeSendsOneCommandByte : Prop :=
  ∀ (s : State) (a1 a2 : Bool) (acks : List Bool), s.quiet → s.initd = true → s.env.acks = a1 :: a2 :: acks →
    ∃ t, exec .lSetMode s = .next t ∧ t.busy = true ∧
      runTurns (eager 12) t = .next { s with
        ci := true
        ackstat := a2
        fs := .idle
        status := { s.status with ack := a2 }
        diag := { s.diag with nack := s.diag.nack + nackCount [a1, a2] }
        env := { s.env with acks := acks }
        trace := s.trace ++ [emitted s.fs .start] ++ lightCommandTail s.laddr (s.argLatch.extractLsb' 0 8) a1 a2 }

/-- L.SETMT, R147 with R146 and R148, on a quiet bus under the eager schedule: two transactions, the high byte first, in the
form CTRL.MT_COMPAT selects. -/
def Obligations.LSetMtSendsBothTimeBytes : Prop :=
  ∀ (s : State) (a1 a2 a3 a4 : Bool) (acks : List Bool), s.quiet → s.initd = true →
    s.env.acks = a1 :: a2 :: a3 :: a4 :: acks →
    let v : Byte := s.argLatch.extractLsb' 0 8
    let hiField : Byte := if s.ctrl.mtCompat then (if v >>> 5 = 0 then 0 else 1) else (v >>> 5) &&& 0x07
    let loField : Byte := if s.ctrl.mtCompat then (if v = 0 then 0 else 1) else v &&& 0x1F
    let hi : Byte := Config.MT_PREFIX_HI ||| hiField
    let lo : Byte := Config.MT_PREFIX_LO ||| loField
    ∃ t, exec .lSetMt s = .next t ∧ t.busy = true ∧
      runTurns (eager 26) t = .next { s with
        ci := true
        ackstat := a4
        fs := .idle
        status := { s.status with ack := a4 }
        diag := { s.diag with nack := s.diag.nack + nackCount [a1, a2, a3, a4] }
        env := { s.env with acks := acks }
        trace := s.trace ++ [emitted s.fs .start] ++ lightCommandTail s.laddr hi a1 a2 ++
          [emitted .idle .start] ++ lightCommandTail s.laddr lo a3 a4 }

/-- L.READ, R150 with R149, on a quiet bus under the eager schedule: the read address is LADDR + 1 modulo 256, the first
byte is acknowledged and the second not, and LIGHT and RES take them most significant byte first. -/
def Obligations.LReadDecodesBigEndian : Prop :=
  ∀ (s : State) (a : Bool) (b1 b2 : Byte) (acks : List Bool) (bytes : List Byte), s.quiet → s.initd = true →
    s.env.acks = a :: acks → s.env.bytes = b1 :: b2 :: bytes →
    ∃ t, exec .lRead s = .next t ∧ t.busy = true ∧
      runTurns (eager 19) t = .next { s with
        ci := true
        ackstat := a
        rxbuf := b2
        fs := .idle
        light := b1 ++ b2
        res := (b1 ++ b2).setWidth 32
        status := { s.status with ack := a }
        diag := { s.diag with nack := s.diag.nack + nackCount [a] }
        env := { s.env with acks := acks, bytes := bytes }
        trace := s.trace ++ [emitted s.fs .start] ++ wrote (s.laddr + 1) a ++ received b1 true ++ received b2 false ++
          [plain (.cond .stop)] }

/-- UV.WRCFG, R156, on a quiet bus under the eager schedule: the four bytes of S.arg in one transaction; RES is
unchanged. -/
def Obligations.UvWrCfgSendsFourBytes : Prop :=
  ∀ (s : State) (a1 a2 a3 a4 : Bool) (acks : List Bool), s.quiet → s.initd = true →
    s.env.acks = a1 :: a2 :: a3 :: a4 :: acks →
    ∃ t, exec .uvWrCfg s = .next t ∧ t.busy = true ∧
      runTurns (eager 20) t = .next { s with
        ci := true
        ackstat := a4
        fs := .idle
        status := { s.status with ack := a4 }
        diag := { s.diag with nack := s.diag.nack + nackCount [a1, a2, a3, a4] }
        env := { s.env with acks := acks }
        trace := s.trace ++ [emitted s.fs .start] ++
          uvWriteTail (s.argLatch.extractLsb' 0 8) (s.argLatch.extractLsb' 8 8) (s.argLatch.extractLsb' 16 8)
            (s.argLatch.extractLsb' 24 8) a1 a2 a3 a4 }

/-- UV.RDREG, R159 with R157 and R160, on a quiet bus under the eager schedule: register select, RSTART and read in one
transaction with one STOP, at its end; RES takes the bytes least significant first; no UV result register is written. -/
def Obligations.UvRdRegDecodesLittleEndian : Prop :=
  ∀ (s : State) (a1 a2 a3 : Bool) (b1 b2 : Byte) (acks : List Bool) (bytes : List Byte), s.quiet → s.initd = true →
    s.env.acks = a1 :: a2 :: a3 :: acks → s.env.bytes = b1 :: b2 :: bytes →
    ∃ t, exec .uvRdReg s = .next t ∧ t.busy = true ∧
      runTurns (eager 29) t = .next { s with
        ci := true
        ackstat := a3
        rxbuf := b2
        fs := .idle
        res := (b2 ++ b1).setWidth 32
        status := { s.status with ack := a3 }
        diag := { s.diag with nack := s.diag.nack + nackCount [a1, a2, a3] }
        env := { s.env with acks := acks, bytes := bytes }
        trace := s.trace ++ [emitted s.fs .start] ++
          uvReadTail (s.argLatch.extractLsb' 0 8) (s.argLatch.extractLsb' 8 8) a1 a2 a3 b1 b2 }

/-- UV.START, R162 with R161, on a quiet bus under the eager schedule: the configuration word of CTRL.UV_IT and CTRL.UV_HD
is data-low and 0x00 is data-high, written to UV_REG_CONF. -/
def Obligations.UvStartWritesConfigWord : Prop :=
  ∀ (s : State) (a1 a2 a3 a4 : Bool) (acks : List Bool), s.quiet → s.initd = true →
    s.env.acks = a1 :: a2 :: a3 :: a4 :: acks →
    ∃ t, exec .uvStart s = .next t ∧ t.busy = true ∧
      runTurns (eager 21) t = .next { s with
        ci := true
        ackstat := a4
        fs := .idle
        status := { s.status with ack := a4 }
        diag := { s.diag with nack := s.diag.nack + nackCount [a1, a2, a3, a4] }
        env := { s.env with acks := acks }
        trace := s.trace ++ [emitted s.fs .start] ++
          uvWriteTail Config.UV_DEV_ADDR Config.UV_REG_CONF
            (Config.UV_IT_BITS s.ctrl.uvIt ||| (if s.ctrl.uvHd then Config.UV_HD_MASK else 0)) 0 a1 a2 a3 a4 }

/-- UV.READ, R164, on a quiet bus under the eager schedule: the recovery check, then UVA, UVB, COMP1 and COMP2 in that
order, each least significant byte first, whether or not the recovery pulsed and whether or not it freed the line; RES ends
with COMP2's value. -/
def Obligations.UvReadReadsFourChannels : Prop :=
  ∀ (s : State) (a1 a2 a3 a4 a5 a6 a7 a8 a9 a10 a11 a12 : Bool) (b1 b2 b3 b4 b5 b6 b7 b8 : Byte)
    (acks : List Bool) (bytes : List Byte) (sdas : List Bool), s.quiet → s.initd = true →
    s.env.acks = a1 :: a2 :: a3 :: a4 :: a5 :: a6 :: a7 :: a8 :: a9 :: a10 :: a11 :: a12 :: acks →
    s.env.bytes = b1 :: b2 :: b3 :: b4 :: b5 :: b6 :: b7 :: b8 :: bytes →
    let read (status : Status) (diag : Diag) (pins : Pins) (records : List Record) (first : Framing) : State :=
      { s with
        ci := true
        ackstat := a12
        rxbuf := b8
        fs := .idle
        uva := b2 ++ b1
        uvb := b4 ++ b3
        comp1 := b6 ++ b5
        comp2 := b8 ++ b7
        res := (b8 ++ b7).setWidth 32
        status := { status with ack := a12 }
        diag := { diag with nack := s.diag.nack + nackCount [a1, a2, a3, a4, a5, a6, a7, a8, a9, a10, a11, a12] }
        pins := pins
        env := { s.env with acks := acks, bytes := bytes, sdas := sdas }
        trace := s.trace ++ records ++
          [emitted first .start] ++ uvReadTail Config.UV_DEV_ADDR Config.UV_REG_UVA a1 a2 a3 b1 b2 ++
          [emitted .idle .start] ++ uvReadTail Config.UV_DEV_ADDR Config.UV_REG_UVB a4 a5 a6 b3 b4 ++
          [emitted .idle .start] ++ uvReadTail Config.UV_DEV_ADDR Config.UV_REG_COMP1 a7 a8 a9 b5 b6 ++
          [emitted .idle .start] ++ uvReadTail Config.UV_DEV_ADDR Config.UV_REG_COMP2 a10 a11 a12 b7 b8 }
    ∃ t, exec .uvRead s = .next t ∧ t.busy = true ∧
      (s.env.sdas = true :: sdas →
        runTurns (eager 118) t =
          .next (read { s.status with recovered := false, stuck := false } s.diag s.pins [plain (.sda true)] s.fs)) ∧
      ∀ s1, s.env.sdas = false :: s1 :: sdas →
        runTurns (eager 154) t =
          .next (read { s.status with recovered := true, stuck := !s1 } { s.diag with recov := s.diag.recov + 1 }
            { s.pins with sclOwner := .phy, sclLevel := true }
            (recoveryRecords .phy s1 ++ (if s.fs = .opened then [plain .abandon] else [])) .idle)

/-- FR.BUILD, R172 with R171 and R173, in one SEQ step: all 50 bytes of FRAME, the checksum over the first 48 placed low
byte first, FRAME_VALID set, and nothing else changed, no byte outside FRAME among it. -/
def Obligations.FrBuildAssemblesTheFrame : Prop :=
  ∀ s : State, s.seq = .idle → s.frame.wf →
    ∃ t u, exec .frBuild s = .next t ∧ t.busy = true ∧ runTurns [.seq] t = .next u ∧
      (let body : List Byte :=
        [50, s.nodeType.extractLsb' 8 8, s.nodeType.extractLsb' 0 8,
         s.uid0.extractLsb' 0 8, s.uid0.extractLsb' 8 8, s.uid0.extractLsb' 16 8, s.uid0.extractLsb' 24 8,
         s.uid1.extractLsb' 0 8, s.uid1.extractLsb' 8 8, s.uid1.extractLsb' 16 8, s.uid1.extractLsb' 24 8,
         s.swver,
         s.cnt.extractLsb' 24 8, s.cnt.extractLsb' 16 8, s.cnt.extractLsb' 8 8, s.cnt.extractLsb' 0 8,
         s.batt.extractLsb' 8 8, s.batt.extractLsb' 0 8, s.temp.extractLsb' 8 8, s.temp.extractLsb' 0 8,
         0, 0, 0, 0,
         s.uva.extractLsb' 8 8, s.uva.extractLsb' 0 8, s.uvb.extractLsb' 8 8, s.uvb.extractLsb' 0 8,
         s.comp1.extractLsb' 8 8, s.comp1.extractLsb' 0 8, s.comp2.extractLsb' 8 8, s.comp2.extractLsb' 0 8,
         s.light.extractLsb' 8 8, s.light.extractLsb' 0 8,
         0, 0, 0, 0, 0, 0, 0, 0, 0, 0, 0, 0, 0, 0]
       frameSeq u = body ++
         [(Config.CHECKSUM16 body).extractLsb' 0 8, (Config.CHECKSUM16 body).extractLsb' 8 8]) ∧
      u = { s with frame := u.frame, status := { s.status with frameValid := true } } ∧
      u.frame.wf ∧ ∀ a, a < 0x80 ∨ 0xB2 ≤ a → u.frame.read a = s.frame.read a

/-- CNT.INC, R176: CNT + 1 modulo 2^32 in one SEQ step, and nothing else, FRAME among it. -/
def Obligations.CntIncAddsOne : Prop :=
  ∀ s : State, s.seq = .idle →
    ∃ t, exec .cntInc s = .next t ∧ t.busy = true ∧
      runTurns [.seq] t = .next { s with cnt := BitVec.ofNat 32 ((s.cnt.toNat + 1) % 2 ^ 32) }

/-! ### Micro-ops, waits and the PHY -/

/-- R104 with R105: one poll of a bounded wait: seen, poll again, or exhausted with TMO and DIAG_TMO recorded; exhausted or
seen, the command goes on to its next micro-op with the poll count 0. -/
def Obligations.WaitPollsOncePerStep : Prop :=
  ∀ (s : State) (r : Run) (u : MuOp), s.seq = .run r → r.prog[r.step]? = some u → u = .waitIdle ∨ u = .waitCi →
    let ok := if s.phy.poisoned then s.env.takePoll.1 else if u = .waitCi then s.ci else decide (s.phy.pending = none)
    let s0 : State := if s.phy.poisoned then { s with env := s.env.takePoll.2 } else s
    let next : Sequencer :=
      if r.step + 1 < r.prog.length then .run { r with step := r.step + 1, iter := 0 } else .idle
    (ok = true → seqStep s = { s0 with seq := next }) ∧
    (ok = false → r.iter + 1 < Config.RETRY_MAX → seqStep s = { s0 with seq := .run { r with iter := r.iter + 1 } }) ∧
    (ok = false → ¬ r.iter + 1 < Config.RETRY_MAX →
      seqStep s = { s0 with
        seq := next, status := { s.status with tmo := true }, diag := { s.diag with tmo := s.diag.tmo + 1 } })

/-- R104: a wait whose event never comes, WAIT_IDLE with a transfer that never completes or WAIT_CI with S.ci = 0, polls
exactly RETRY_MAX times and then goes on. -/
def Obligations.WaitExhaustsAfterRetryMaxPolls : Prop :=
  ∀ (s : State) (r : Run), s.seq = .run r → r.iter = 0 → s.phy.poisoned = false →
    (r.prog[r.step]? = some .waitIdle ∧ s.phy.pending ≠ none) ∨ (r.prog[r.step]? = some .waitCi ∧ s.ci = false) →
    (∀ k, k < Config.RETRY_MAX → runTurns (stalled k) s = .next { s with seq := .run { r with iter := k } }) ∧
    runTurns (stalled Config.RETRY_MAX) s = .next { s with
      seq := if r.step + 1 < r.prog.length then .run { r with step := r.step + 1, iter := 0 } else .idle
      status := { s.status with tmo := true }
      diag := { s.diag with tmo := s.diag.tmo + 1 } }

/-- WRITE on a bus whose PHY never completes (R115, R120): 153 SEQ steps, TMO and DIAG_TMO, and the acknowledge bit that
was latched before is returned. -/
def Obligations.WriteTimesOutWithStaleAck : Prop :=
  ∀ s : State, s.quiet → s.initd = true →
    ∃ t, exec .write s = .next t ∧
      runTurns (stalled (Config.RETRY_MAX + 3)) t = .next { s with
        ci := false
        phy := ⟨some (.tx (s.argLatch.extractLsb' 0 8)), false⟩
        res := if s.ackstat then 1 else 0
        status := { s.status with ack := s.ackstat, tmo := true }
        diag := { s.diag with tmo := s.diag.tmo + 1, nack := s.diag.nack + nackCount [s.ackstat] }
        trace := s.trace ++ [issued s.fs (.tx (s.argLatch.extractLsb' 0 8))] }

/-- 70_reset_and_hazards.md R214: a WRITE issued while a transfer is in flight collides in its second step. -/
def Obligations.WriteOnBusyPhyCollides : Prop :=
  ∀ (s : State) (o : PhyOp), s.seq = .idle → s.initd = true → s.phy = ⟨some o, false⟩ →
    ∃ t u, exec .write s = .next t ∧ runTurns (stalled 2) t = .next u ∧
      u = { s with
        ci := false
        phy := ⟨none, true⟩
        seq := u.seq
        status := { s.status with coll := true }
        diag := { s.diag with coll := s.diag.coll + 1 }
        trace := s.trace ++ [plain (.collision (.op (.tx (s.argLatch.extractLsb' 0 8))))] } ∧
      u.running = some .write

/-- R106: the PHY's completion step, for each transfer; it does nothing with no transfer in flight or a poisoned PHY. -/
def Obligations.PhyCompletesTheTransfer : Prop :=
  ∀ s : State,
    (s.phy.poisoned = true ∨ s.phy.pending = none → phyStep s = s) ∧
    (s.phy.poisoned = false →
      (∀ b, s.phy.pending = some (.tx b) →
        phyStep s = { s with
          phy := ⟨none, false⟩
          ackstat := s.env.takeAck.1
          ci := true
          env := s.env.takeAck.2
          trace := s.trace ++ [plain (.txdone s.env.takeAck.1)] }) ∧
      (s.phy.pending = some .rx →
        phyStep s = { s with
          phy := ⟨none, false⟩
          rxbuf := s.env.takeByte.1
          env := s.env.takeByte.2
          trace := s.trace ++ [plain (.rxdone s.env.takeByte.1)] }) ∧
      ∀ x, s.phy.pending = some (.ackdrv x) →
        phyStep s = { s with phy := ⟨none, false⟩, trace := s.trace ++ [plain .ackdone] })

/-- R107, R108 and R119's SCL_TAKE, the three sources of a collision: an issue or a condition on a poisoned PHY is only
logged, with `unrel`; on a busy PHY it collides; else it takes effect. A condition moves S.fs in every case. SCL_TAKE on a
busy PHY collides; in every case SCL becomes a GPIO, and the record of it carries `unrel` where the PHY is then poisoned
(log 7). -/
def Obligations.IssueConditionAndCollision : Prop :=
  ∀ (s : State) (o : PhyOp) (c : Cond),
    let collided (x : Collider) : State := { s with
      phy := ⟨none, true⟩
      status := { s.status with coll := true }
      diag := { s.diag with coll := s.diag.coll + 1 }
      trace := s.trace ++ [plain (.collision x)] }
    (s.phy.poisoned = true →
      phyIssue o s = { s with trace := s.trace ++ [⟨.issue o, ⟨decide (s.fs = .idle), false, true⟩⟩] } ∧
      phyCond c s = { s with
        fs := if c = .stop then .idle else .opened
        trace := s.trace ++ [⟨.cond c, ⟨decide (c ≠ .start ∧ s.fs = .idle), decide (c = .start ∧ s.fs = .opened), true⟩⟩] } ∧
      takeScl s = { s with
        pins := { s.pins with sclOwner := .gpio }, trace := s.trace ++ [(plain (.sclctl .gpio)).unreliable] }) ∧
    (s.phy.poisoned = false → s.phy.pending ≠ none →
      phyIssue o s = collided (.op o) ∧
      phyCond c s = { collided (.cond c) with fs := if c = .stop then .idle else .opened } ∧
      takeScl s = { collided .recover with
        pins := { s.pins with sclOwner := .gpio }
        trace := (collided .recover).trace ++ [(plain (.sclctl .gpio)).unreliable] }) ∧
    (s.phy = ⟨none, false⟩ →
      phyIssue o s = { s with
        phy := ⟨some o, false⟩, trace := s.trace ++ [⟨.issue o, ⟨decide (s.fs = .idle), false, false⟩⟩] } ∧
      phyCond c s = { s with
        fs := if c = .stop then .idle else .opened
        trace := s.trace ++ [⟨.cond c, ⟨decide (c ≠ .start ∧ s.fs = .idle), decide (c = .start ∧ s.fs = .opened), false⟩⟩] } ∧
      takeScl s = { s with
        pins := { s.pins with sclOwner := .gpio }, trace := s.trace ++ [plain (.sclctl .gpio)] })

/-- R109: while the PHY is poisoned every poll and every capture is a draw, and no PHY completion step runs. The draws take
the next answers of State's lists (log 2, the model's choice). That every record of a SEQ step carries `unrel`, and not
the issued events alone, is the model's reading of R52 (log 7). -/
def Obligations.PoisonedPhyAnswersAreDraws : Prop :=
  ∀ s : State, s.phy.poisoned = true →
    (pollIdle s).1 = s.env.takePoll.1 ∧ (pollCi s).1 = s.env.takePoll.1 ∧ (obsAck s).1 = s.env.takeAck.1 ∧
    (obsRx s).1 = s.env.takeByte.1 ∧ phyStep s = s ∧
    ∃ l, (seqStep s).trace = s.trace ++ l ∧ ∀ x ∈ l, x.flags.unrel = true

/-! ### Invariants that every step keeps -/

/-- Every step of every agent keeps S.seq inside its own command's program. -/
def Obligations.StepKeepsSequencerOk : Prop :=
  ∀ s s' : State, SequencerOk s → step s = .next s' → SequencerOk s'

/-- Every step keeps the PHY, INIT and the bus lines consistent, and SCL a GPIO only inside a recovery. -/
def Obligations.StepKeepsBusOk : Prop :=
  ∀ s s' : State, SequencerOk s ∧ BusOk s ∧ SclOk s → step s = .next s' → BusOk s' ∧ SclOk s'

/-- Every step keeps ERRCODE with ERR, STUCK with RECOVERED, and RES[31:16] = 0. -/
def Obligations.StepKeepsRecordOk : Prop :=
  ∀ s s' : State, RecordOk s → step s = .next s' → RecordOk s'

/-- Every step keeps FRAME canonical, inside its 50 bytes, all zero before the first FR.BUILD, and afterwards a frame with
its length byte, its reserved zeros and its checksum (43_frame.md R175). -/
def Obligations.StepKeepsFrameOk : Prop :=
  ∀ s s' : State, FrameOk s → step s = .next s' → FrameOk s'

/-- The reset state meets every invariant, and holds every row of R59's table: the two UV selections at their OPEN defaults
and LADDR one of the two light addresses by STRAP (log 10), every other register, counter, latch and FRAME byte 0, no
transfer, no poisoning, no transaction, SEQ idle, both lines released, an empty trace. What a reset turn keeps of the world
outside the block is the model's choice (log 13). -/
def Obligations.ResetMeetsTheInvariants : Prop :=
  SequencerOk State.reset ∧ BusOk State.reset ∧ SclOk State.reset ∧ RecordOk State.reset ∧ FrameOk State.reset ∧
  statusWord State.reset = 0 ∧ State.reset.seq = .idle ∧ State.reset.pins.sclOwner = .released ∧
  State.reset.pins.sdaOwner = .released ∧ State.reset.cnt = 0 ∧ State.reset.trace = [] ∧
  (∀ i, frameByte State.reset i = 0) ∧
  State.reset.laddr = (if Config.STRAP then Config.LIGHT_ADDR_HI else Config.LIGHT_ADDR_LO) ∧
  State.reset.ctrl = ⟨false, Config.UV_IT_DEFAULT, Config.UV_HD_DEFAULT⟩ ∧
  (State.reset.arg = 0 ∧ State.reset.cmd = 0 ∧ State.reset.res = 0 ∧ State.reset.clkHz = 0) ∧
  (State.reset.nodeType = 0 ∧ State.reset.uid0 = 0 ∧ State.reset.uid1 = 0 ∧ State.reset.swver = 0 ∧
    State.reset.batt = 0 ∧ State.reset.temp = 0 ∧ State.reset.uva = 0 ∧ State.reset.uvb = 0 ∧
    State.reset.comp1 = 0 ∧ State.reset.comp2 = 0 ∧ State.reset.light = 0) ∧
  State.reset.diag = ⟨0, 0, 0, 0⟩ ∧
  (State.reset.phy = ⟨none, false⟩ ∧ State.reset.ci = false ∧ State.reset.ackstat = false ∧ State.reset.rxbuf = 0 ∧
    State.reset.fs = .idle ∧ State.reset.initd = false ∧ State.reset.argLatch = 0) ∧
  ∀ s, ∃ s', agentStep .reset s = .next s' ∧
    s' = { State.reset with host := s.host, rdata := s.rdata, sched := s.sched, turns := s.turns, env := s.env }

/-! ### Rules of the whole machine -/

/-- Which agent and which command may change each register and each STATUS field (R22 to R39, R44, R48, R53, R104, R108,
R153, R167, R182, R186): in one turn `t` of any agent, a register that changes was written by a command the spec names for
it, by the host where the host may write it, or by power-on reset. The STATUS fields are R24's, set and cleared as its two
columns say: BUSY by the launch and by SEQ; TMO by the last poll of a wait; COLL and POISON by a command that issues on a
busy PHY; ERR, ERR_OVF, ERRCODE and WWB by a host access. -/
def Obligations.OnlyNamedWritersChangeRegisters : Prop :=
  ∀ (t : Turn) (s s' : State), SequencerOk s → agentStep t s = .next s' → t ≠ .reset →
    let ran (is : List Instr) : Prop := t = .seq ∧ ∃ i ∈ is, s.running = some i
    let senders : List Instr := [.write, .lSetMode, .lSetMt, .lRead, .uvWrCfg, .uvRdReg, .uvStart, .uvRead]
    let bus : List Instr := [.start, .rstart, .stop, .read true, .read false] ++ senders
    let collided : Prop := ran (.recover :: bus) ∧ s.phy.poisoned = false ∧ s.phy.pending ≠ none
    (s'.ctrl ≠ s.ctrl ∨ s'.arg ≠ s.arg ∨ s'.cmd ≠ s.cmd ∨ s'.argLatch ≠ s.argLatch ∨ s'.nodeType ≠ s.nodeType ∨
      s'.uid0 ≠ s.uid0 ∨ s'.uid1 ≠ s.uid1 ∨ s'.swver ≠ s.swver ∨ s'.batt ≠ s.batt ∨ s'.temp ≠ s.temp → t = .host) ∧
    (s'.cnt ≠ s.cnt → t = .host ∨ ran [.cntInc]) ∧
    (s'.light ≠ s.light → t = .host ∨ ran [.lRead]) ∧
    (s'.uva ≠ s.uva ∨ s'.uvb ≠ s.uvb ∨ s'.comp1 ≠ s.comp1 ∨ s'.comp2 ≠ s.comp2 → t = .host ∨ ran [.uvRead]) ∧
    (s'.res ≠ s.res → ran [.write, .read true, .read false, .lRead, .uvRdReg, .uvRead]) ∧
    (s'.clkHz ≠ s.clkHz → ran [.init]) ∧
    (s'.laddr ≠ s.laddr → ran [.lSetAddr true, .lSetAddr false]) ∧
    (s'.frame ≠ s.frame ∨ s'.status.frameValid ≠ s.status.frameValid → ran [.frBuild]) ∧
    (s'.initd ≠ s.initd → ran [.init, .deinit]) ∧
    (s.phy.poisoned = true → s'.phy.poisoned = false → ran [.init, .deinit]) ∧
    (s'.status.stuck ≠ s.status.stuck ∨ s'.status.recovered ≠ s.status.recovered ∨ s'.diag.recov ≠ s.diag.recov →
      ran [.recover, .uvRead]) ∧
    (s.busy = false → s'.busy = true → t = .host) ∧
    (s.busy = true → s'.busy = false → t = .seq) ∧
    (s'.fs ≠ s.fs →
      ran [.init, .deinit, .start, .rstart, .stop, .recover, .lSetMode, .lSetMt, .lRead, .uvWrCfg, .uvRdReg, .uvStart,
        .uvRead]) ∧
    (s'.status.ack ≠ s.status.ack → ran senders) ∧
    (s'.diag.nack ≠ s.diag.nack → ran senders ∧ s'.status.ack = true) ∧
    (s.status.tmo = true → s'.status.tmo = false → t = .host) ∧
    (s.status.tmo = false ∧ s'.status.tmo = true ∨ s'.diag.tmo ≠ s.diag.tmo →
      ran bus ∧ s'.status.tmo = true ∧ ∃ r, s.seq = .run r ∧ r.iter + 1 = Config.RETRY_MAX ∧
        (r.prog[r.step]? = some .waitIdle ∨ r.prog[r.step]? = some .waitCi)) ∧
    (s.status.coll = true → s'.status.coll = false → t = .host) ∧
    (s.status.coll = false ∧ s'.status.coll = true ∨ s'.diag.coll ≠ s.diag.coll →
      collided ∧ s'.status.coll = true ∧ s'.phy = ⟨none, true⟩) ∧
    (s.phy.poisoned = false → s'.phy.poisoned = true → collided) ∧
    (s'.status.err ≠ s.status.err ∨ s'.status.errOvf ≠ s.status.errOvf ∨ s'.status.errcode ≠ s.status.errcode ∨
      s'.status.wwb ≠ s.status.wwb → t = .host) ∧
    (s.status.errOvf = false → s'.status.errOvf = true → s.status.err = true ∧ s.busy = false) ∧
    (s.status.wwb = false → s'.status.wwb = true → s.busy = true)

/-- R38: nothing but reset clears the diagnostic counters; a SEQ turn adds at most 1 to each, and HOST and PHY turns leave
them. -/
def Obligations.DiagnosticCountersOnlyCountUp : Prop :=
  ∀ (t : Turn) (s s' : State), agentStep t s = .next s' → t ≠ .reset →
    (t ≠ .seq → s'.diag = s.diag) ∧
    (s'.diag.tmo = s.diag.tmo ∨ s'.diag.tmo = s.diag.tmo + 1) ∧
    (s'.diag.nack = s.diag.nack ∨ s'.diag.nack = s.diag.nack + 1) ∧
    (s'.diag.recov = s.diag.recov ∨ s'.diag.recov = s.diag.recov + 1) ∧
    (s'.diag.coll = s.diag.coll ∨ s'.diag.coll = s.diag.coll + 1)

/-- R52: the trace only grows; only reset empties it. -/
def Obligations.TraceOnlyGrows : Prop :=
  ∀ (t : Turn) (s s' : State), agentStep t s = .next s' → t ≠ .reset → s.trace <+: s'.trace

/-- A HOST turn touches no bus state and no result: the PHY, the latches, the lines, the trace, S.initd, FRAME, RES,
CLK_HZ, LADDR and the counters are as before it (R41, R66, R186). -/
def Obligations.HostTurnLeavesTheBus : Prop :=
  ∀ s s' : State, agentStep .host s = .next s' →
    s'.phy = s.phy ∧ s'.ci = s.ci ∧ s'.ackstat = s.ackstat ∧ s'.rxbuf = s.rxbuf ∧ s'.fs = s.fs ∧ s'.pins = s.pins ∧
    s'.trace = s.trace ∧ s'.initd = s.initd ∧ s'.frame = s.frame ∧ s'.res = s.res ∧ s'.clkHz = s.clkHz ∧
    s'.laddr = s.laddr ∧ s'.diag = s.diag ∧ s'.env = s.env ∧ (s.busy = true → s'.seq = s.seq)

/-- R45, R46, R47 and the ACK row of R24: only a TX completion sets S.ci; S.ackstat is written by a TX completion, S.rxbuf
by an RX completion, and both by INIT; STATUS.ACK is written by CAP_ACK alone. -/
def Obligations.LatchesHaveOneWriter : Prop :=
  ∀ (t : Turn) (s s' : State), SequencerOk s → agentStep t s = .next s' → t ≠ .reset →
    (s.ci = false → s'.ci = true → t = .phy ∧ ∃ b, s.phy.pending = some (.tx b)) ∧
    (s'.ackstat ≠ s.ackstat →
      (t = .phy ∧ ∃ b, s.phy.pending = some (.tx b)) ∨ (t = .seq ∧ s.running = some .init)) ∧
    (s'.rxbuf ≠ s.rxbuf → (t = .phy ∧ s.phy.pending = some .rx) ∨ (t = .seq ∧ s.running = some .init)) ∧
    (s'.status.ack ≠ s.status.ack →
      t = .seq ∧ ∃ r toRes, s.seq = .run r ∧ r.prog[r.step]? = some (.capAck toRes))

/-- R122: under every schedule without a reset, a command that runs has ended by the time SEQ has taken
`length(prog) * RETRY_MAX` steps, whatever the PHY, ENV and the host do. -/
def Obligations.EveryCommandEnds : Prop :=
  ∀ (s : State) (r : Run) (ts : List Turn), SequencerOk s → s.seq = .run r → .reset ∉ ts →
    r.prog.length * Config.RETRY_MAX ≤ ts.count .seq →
    ∃ k u, k ≤ ts.length ∧ runTurns (ts.take k) s = .next u ∧ u.seq = .idle

/-- 20_memory.md R78: under every schedule of SEQ and PHY, whatever collides, times out or is poisoned, the bus operations
a command has issued by its end are those of its micro-op list, in its order. -/
def Obligations.BusOperationsFollowTheProgram : Prop :=
  ∀ (i : Instr) (s t u : State) (ts : List Turn), s.seq = .idle → exec i s = .next t → t.busy = true →
    (∀ x ∈ ts, x = .seq ∨ x = .phy) → runTurns ts t = .next u → u.seq = .idle →
    issuedKinds u.trace = issuedKinds s.trace ++ programKinds (program i)

/-- 40_transport.md R119 and 42_uv.md R165: under every schedule of SEQ and PHY, RECOVER and UV.READ drive no pulse where
the first sample is high, and where it is low exactly RECOVERY_PULSES pulses, after which the data line is sampled again
before any bus operation is issued. -/
def Obligations.RecoveryDrivesExactlyEightPulses : Prop :=
  ∀ (i : Instr) (s t u : State) (ts : List Turn) (first : Bool) (sdas : List Bool), i = .recover ∨ i = .uvRead →
    s.seq = .idle → s.env.sdas = first :: sdas → exec i s = .next t → t.busy = true →
    (∀ x ∈ ts, x = .seq ∨ x = .phy) → runTurns ts t = .next u → u.seq = .idle →
    (first = true → pulseCount u.trace = pulseCount s.trace) ∧
    (first = false → ∃ mid x post, u.trace = s.trace ++ mid ++ x :: post ∧ (∃ v, x.event = .sda v) ∧
      pulseCount mid = Config.RECOVERY_PULSES ∧ issuedKinds mid = [] ∧ pulseCount post = 0)

/-! ### Values -/

/-- 41_light.md R151: the two byte orders, and that they differ exactly when the bytes do. -/
def Obligations.ByteOrdersDiffer : Prop :=
  ∀ b1 b2 : Byte,
    (lightValue b1 b2).toNat = b1.toNat * 256 + b2.toNat ∧ (uvValue b1 b2).toNat = b2.toNat * 256 + b1.toNat ∧
    (lightValue b1 b2 = uvValue b1 b2 ↔ b1 = b2) ∧ lightValue 0x12 0x34 = 0x1234 ∧ uvValue 0x12 0x34 = 0x3412

/-- 41_light.md R148: the corrected and the compatibility fields of L.SETMT agree exactly for v in 0x00, 0x01, 0x21. -/
def Obligations.MeasurementTimeFormsAgreeOnThree : Prop :=
  ∀ v : Byte, (mtHiField v = mtcHiField v ∧ mtLoField v = mtcLoField v) ↔ v = 0x00 ∨ v = 0x01 ∨ v = 0x21

/-- 42_uv.md R161: for every set of device constants that meets the spec's requirements (`DeviceParams.ok`), the
configuration word determines both selections. So does this implementation's, whose constants meet the requirements by the
model's construction (log 9). -/
def Obligations.UvConfigWordDeterminesSelections : Prop :=
  (∀ (p : DeviceParams) (it it' : BitVec 2) (hd hd' : Bool), p.ok = true →
    uvConfigWordOf p it hd = uvConfigWordOf p it' hd' → it = it' ∧ hd = hd') ∧
  Config.device.ok = true ∧
  ∀ (it it' : BitVec 2) (hd hd' : Bool), uvConfigWord it hd = uvConfigWord it' hd' → it = it' ∧ hd = hd'

/-- 43_frame.md R182: a second FR.BUILD with no register write between leaves the same state. -/
def Obligations.FrBuildIsIdempotent : Prop :=
  ∀ s t u : State, s.seq = .idle → s.frame.wf →
    (∃ s1, exec .frBuild s = .next s1 ∧ runTurns [.seq] s1 = .next t) →
    (∃ t1, exec .frBuild t = .next t1 ∧ runTurns [.seq] t1 = .next u) → u = t

/-! ### A recovery during a transfer -/

/-- R119's SCL_TAKE with R108: RECOVER, or UV.READ's recovery, begun with a transfer in flight that does not complete. Where
SDA samples high there is no pulse, no pin change and no collision, and the transfer goes on; where it samples low the third
step collides, and RECOVER runs on to its end on the poisoned PHY, with all its pulses, its pins and its second sample. The
records logged while poisoned carry `unrel` (log 7). -/
def Obligations.RecoveryDuringATransferCollides : Prop :=
  ∀ (i : Instr) (s : State) (o : PhyOp) (sdas : List Bool), i = .recover ∨ (i = .uvRead ∧ s.initd = true) →
    s.seq = .idle → s.phy = ⟨some o, false⟩ →
    ∃ t, exec i s = .next t ∧ t.busy = true ∧
      (s.env.sdas = true :: sdas →
        ∃ u, runTurns (stalled 2) t = .next u ∧ u.running = (if i = .recover then none else some i) ∧
          u = { s with
            seq := u.seq
            status := { s.status with recovered := false, stuck := false }
            env := { s.env with sdas := sdas }
            trace := s.trace ++ [plain (.sda true)] }) ∧
      (s.env.sdas = false :: sdas →
        ∃ u, runTurns (stalled 3) t = .next u ∧ u.running = some i ∧
          u = { s with
            phy := ⟨none, true⟩
            seq := u.seq
            status := { s.status with coll := true }
            diag := { s.diag with coll := s.diag.coll + 1 }
            pins := { s.pins with sclOwner := .gpio }
            env := { s.env with sdas := sdas }
            trace := s.trace ++
              [plain (.sda false), plain (.collision .recover), (plain (.sclctl .gpio)).unreliable] }) ∧
      ∀ s1, i = .recover → s.env.sdas = false :: s1 :: sdas →
        runTurns (stalled 38) t = .next { s with
          phy := ⟨none, true⟩
          status := { s.status with coll := true, recovered := true, stuck := !s1 }
          diag := { s.diag with coll := s.diag.coll + 1, recov := s.diag.recov + 1 }
          fs := .idle
          pins := { s.pins with sclOwner := if s.initd then .phy else .released, sclLevel := true }
          env := { s.env with sdas := sdas }
          trace := s.trace ++ [plain (.sda false), plain (.collision .recover)] ++
            ((recoveryRecords (if s.initd then .phy else .released) s1).drop 1 ++
              (if s.fs = .opened then [plain .abandon] else [])).map Record.unreliable }
end

