-- ==== Sys2Proof/Laws/Memory.lean ====
section
/-! SUPPORT. The laws of the FRAME memory: what a read after a write gives, and that every operation keeps the canonical
form. -/

namespace Sys2Proof.Machine

@[simp] theorem memory_read_nil (a : Nat) : Memory.read [] a = Memory.unlisted := rfl

@[simp] theorem memory_read_cons (c : Host.Cell) (m : Memory) (a : Nat) :
    Memory.read (c :: m) a = if c.1 = a then c.2 else Memory.read m a := rfl

/-- An address below every listed one is not listed. -/
theorem memory_read_below {m : Memory} {a : Nat} (h : ∀ c ∈ m, a < c.1) : m.read a = Memory.unlisted := by
  induction m with
  | nil => rfl
  | cons c m ih =>
    have hc := h c (by simp)
    rw [memory_read_cons, if_neg (by omega), ih (fun d hd => h d (by simp [hd]))]

/-- The tail of a canonical memory is canonical. -/
theorem memory_wf_tail {c : Host.Cell} {m : Memory} (h : Memory.wf (c :: m)) : Memory.wf m :=
  ⟨(List.pairwise_cons.mp h.1).2, fun d hd => h.2 d (by simp [hd])⟩

theorem memory_wf_nil : Memory.wf [] := ⟨List.Pairwise.nil, by simp⟩

/-- A write lists no address but its own anew. -/
theorem memory_mem_write {m : Memory} {a : Nat} {b : Byte} {c : Host.Cell} (h : c ∈ m.write a b) :
    c ∈ m ∨ (c.1 = a ∧ c.2 = b ∧ b ≠ Memory.unlisted) := by
  induction m with
  | nil =>
    unfold Memory.write at h
    split at h
    · simp at h
    · obtain rfl := List.mem_singleton.mp h; exact .inr ⟨rfl, rfl, ‹_›⟩
  | cons d m ih =>
    unfold Memory.write at h
    split at h
    · split at h
      · exact .inl h
      · rcases List.mem_cons.mp h with rfl | h
        · exact .inr ⟨rfl, rfl, ‹_›⟩
        · exact .inl h
    · split at h
      · split at h
        · exact .inl (List.mem_cons_of_mem _ h)
        · rcases List.mem_cons.mp h with rfl | h
          · exact .inr ⟨rfl, rfl, ‹_›⟩
          · exact .inl (List.mem_cons_of_mem _ h)
      · rcases List.mem_cons.mp h with rfl | h
        · exact .inl (by simp)
        · exact (ih h).imp (List.mem_cons_of_mem _) id

/-- A write keeps the canonical form. -/
theorem memory_write_wf {m : Memory} (h : m.wf) (a : Nat) (b : Byte) : (m.write a b).wf := by
  refine ⟨?_, fun c hc => (memory_mem_write hc).elim (h.2 c) (fun ⟨_, h2, h3⟩ => h2 ▸ h3)⟩
  induction m with
  | nil => unfold Memory.write; split <;> simp
  | cons d m ih =>
    have hp := List.pairwise_cons.mp h.1
    unfold Memory.write
    split
    · split
      · exact h.1
      · refine List.pairwise_cons.mpr ⟨fun e he => ?_, h.1⟩
        rcases List.mem_cons.mp he with rfl | he
        · assumption
        · exact Nat.lt_trans ‹a < d.1› (hp.1 e he)
    · split
      · split
        · exact hp.2
        · refine List.pairwise_cons.mpr ⟨fun e he => ?_, hp.2⟩
          have := hp.1 e he
          simp only; omega
      · refine List.pairwise_cons.mpr ⟨fun e he => ?_, ih (memory_wf_tail h)⟩
        rcases memory_mem_write he with he | ⟨he, _⟩
        · exact hp.1 e he
        · omega

/-- A read after a write to the same address gives the byte written. -/
theorem memory_read_write_same {m : Memory} (h : m.wf) (a : Nat) (b : Byte) : (m.write a b).read a = b := by
  induction m with
  | nil => unfold Memory.write; split <;> simp_all
  | cons d m ih =>
    have hp := List.pairwise_cons.mp h.1
    unfold Memory.write
    split
    · split
      · rename_i hb
        rw [hb]
        refine memory_read_below fun e he => ?_
        rcases List.mem_cons.mp he with rfl | he
        · assumption
        · exact Nat.lt_trans ‹a < d.1› (hp.1 e he)
      · simp
    · split
      · split
        · rename_i ha hb
          rw [hb]
          exact memory_read_below fun e he => ha ▸ hp.1 e he
        · simp
      · rw [memory_read_cons, if_neg (fun e => ‹¬a = d.1› e.symm), ih (memory_wf_tail h)]

/-- A write leaves every other address as it was. -/
theorem memory_read_write_other (m : Memory) {a x : Nat} (b : Byte) (hx : x ≠ a) : (m.write a b).read x = m.read x := by
  induction m with
  | nil => unfold Memory.write; split <;> simp [hx.symm]
  | cons d m ih =>
    unfold Memory.write
    split
    · split
      · rfl
      · simp [hx.symm]
    · split
      · rename_i ha
        split
        · rw [memory_read_cons, if_neg (fun e => hx (by omega))]
        · simp [ha ▸ hx.symm, hx.symm]
      · rw [memory_read_cons, memory_read_cons, ih]

/-- Storing bytes keeps the canonical form. -/
theorem memory_writeBytes_wf {m : Memory} (h : m.wf) (a : Nat) (bs : List Byte) : (m.writeBytes a bs).wf := by
  induction bs generalizing m a with
  | nil => exact h
  | cons b bs ih => exact ih (memory_write_wf h a b) (a + 1)

/-- Storing bytes leaves the addresses outside them as they were. -/
theorem memory_read_writeBytes_outside (m : Memory) {a x : Nat} (bs : List Byte) (hx : x < a ∨ a + bs.length ≤ x) :
    (m.writeBytes a bs).read x = m.read x := by
  induction bs generalizing m a with
  | nil => rfl
  | cons b bs ih =>
    simp only [List.length_cons] at hx
    unfold Memory.writeBytes
    rw [ih (m.write a b) (by omega), memory_read_write_other m b (by omega)]

/-- Storing bytes stores them. -/
theorem memory_read_writeBytes {m : Memory} (h : m.wf) (a i : Nat) (bs : List Byte) (hi : i < bs.length) :
    (m.writeBytes a bs).read (a + i) = bs[i] := by
  induction bs generalizing m a i with
  | nil => simp at hi
  | cons b bs ih =>
    unfold Memory.writeBytes
    cases i with
    | zero =>
      rw [memory_read_writeBytes_outside _ _ (by omega)]
      exact memory_read_write_same h a b
    | succ i =>
      have := ih (memory_write_wf h a b) (a + 1) i (by simpa using hi)
      rw [show a + (i + 1) = a + 1 + i by omega, this]
      rfl

/-- Every address a stored memory lists is an old one or lies among the stored bytes. -/
theorem memory_mem_writeBytes {m : Memory} {a : Nat} {bs : List Byte} {c : Host.Cell} (h : c ∈ m.writeBytes a bs) :
    c ∈ m ∨ (a ≤ c.1 ∧ c.1 < a + bs.length) := by
  induction bs generalizing m a with
  | nil => exact .inl h
  | cons b bs ih =>
    simp only [List.length_cons]
    rcases ih h with h | h
    · rcases memory_mem_write h with h | ⟨h, _⟩
      · exact .inl h
      · exact .inr (by omega)
    · exact .inr (by omega)

/-- Reading a run of addresses, byte by byte. -/
theorem memory_getElem_readBytes (m : Memory) (a n i : Nat) (hi : i < (m.readBytes a n).length) :
    (m.readBytes a n)[i] = m.read (a + i) := by
  induction n generalizing a i with
  | zero => simp [Memory.readBytes] at hi
  | succ n ih =>
    cases i with
    | zero => rfl
    | succ i =>
      have := ih (a + 1) i (by simpa [Memory.readBytes] using hi)
      simp only [Memory.readBytes, List.getElem_cons_succ, this]
      congr 1
      omega

@[simp] theorem memory_length_readBytes (m : Memory) (a n : Nat) : (m.readBytes a n).length = n := by
  induction n generalizing a with
  | zero => rfl
  | succ n ih => simp [Memory.readBytes, ih]

/-- Reading back the first `n` stored bytes gives them. -/
theorem memory_readBytes_writeBytes {m : Memory} (h : m.wf) (a n : Nat) (bs : List Byte) (hn : n ≤ bs.length) :
    (m.writeBytes a bs).readBytes a n = bs.take n := by
  refine List.ext_getElem (by simp [hn]) fun i hi hi' => ?_
  rw [memory_getElem_readBytes, memory_read_writeBytes h]
  · simp
  · simp at hi; omega

/-- The byte an address reads as in a canonical memory is the one listed for it. -/
theorem memory_read_of_mem {m : Memory} (h : m.wf) {c : Host.Cell} (hc : c ∈ m) : m.read c.1 = c.2 := by
  induction m with
  | nil => simp at hc
  | cons d m ih =>
    rcases List.mem_cons.mp hc with rfl | hc
    · simp
    · have := (List.pairwise_cons.mp h.1).1 c hc
      rw [memory_read_cons, if_neg (by omega), ih (memory_wf_tail h) hc]

/-- Canonical memories that read alike are the same data. -/
theorem memory_eq_of_read {m m' : Memory} (h : m.wf) (h' : m'.wf) (heq : ∀ a, m.read a = m'.read a) : m = m' := by
  induction m generalizing m' with
  | nil =>
    cases m' with
    | nil => rfl
    | cons d m' => exact absurd (heq d.1) (by simpa using (h'.2 d (by simp)).symm)
  | cons c m ih =>
    cases m' with
    | nil => exact absurd (heq c.1) (by simpa using h.2 c (by simp))
    | cons d m' =>
      have hc := (List.pairwise_cons.mp h.1).1
      have hd := (List.pairwise_cons.mp h'.1).1
      have h1 : c.1 = d.1 := by
        rcases Nat.lt_trichotomy c.1 d.1 with hl | hl | hl
        · have e := heq c.1
          rw [memory_read_of_mem h (by simp), memory_read_below (m := d :: m')] at e
          · exact absurd e (h.2 c (by simp))
          · intro x hx
            rcases List.mem_cons.mp hx with rfl | hx
            · exact hl
            · exact Nat.lt_trans hl (hd x hx)
        · exact hl
        · have e := heq d.1
          rw [memory_read_of_mem h' (by simp), memory_read_below (m := c :: m)] at e
          · exact absurd e.symm (h'.2 d (by simp))
          · intro x hx
            rcases List.mem_cons.mp hx with rfl | hx
            · exact hl
            · exact Nat.lt_trans hl (hc x hx)
      have h2 : c.2 = d.2 := by
        have e := heq c.1
        rwa [memory_read_of_mem h (by simp), h1, memory_read_of_mem h' (by simp)] at e
      have hcd : c = d := Prod.ext h1 h2
      subst hcd
      rw [ih (memory_wf_tail h) (memory_wf_tail h') fun a => ?_]
      by_cases ha : c.1 = a
      · subst ha
        rw [memory_read_below hc, memory_read_below hd]
      · have := heq a
        rwa [memory_read_cons, memory_read_cons, if_neg ha, if_neg ha] at this

end Sys2Proof.Machine
end

