-- ==== Sys2Proof/Laws/State.lean ====
section
/-! SUPPORT. One lemma per field per named update of State, true by rfl, so that no later proof unfolds an update. -/

namespace Sys2Proof.Machine

/-! ### logFlagged -/

@[simp] theorem logFlagged_ctrl (e : Event) (uf ro : Bool) (s : State) : (logFlagged e uf ro s).ctrl = s.ctrl := rfl
@[simp] theorem logFlagged_status (e : Event) (uf ro : Bool) (s : State) : (logFlagged e uf ro s).status = s.status := rfl
@[simp] theorem logFlagged_arg (e : Event) (uf ro : Bool) (s : State) : (logFlagged e uf ro s).arg = s.arg := rfl
@[simp] theorem logFlagged_cmd (e : Event) (uf ro : Bool) (s : State) : (logFlagged e uf ro s).cmd = s.cmd := rfl
@[simp] theorem logFlagged_res (e : Event) (uf ro : Bool) (s : State) : (logFlagged e uf ro s).res = s.res := rfl
@[simp] theorem logFlagged_clkHz (e : Event) (uf ro : Bool) (s : State) : (logFlagged e uf ro s).clkHz = s.clkHz := rfl
@[simp] theorem logFlagged_laddr (e : Event) (uf ro : Bool) (s : State) : (logFlagged e uf ro s).laddr = s.laddr := rfl
@[simp] theorem logFlagged_cnt (e : Event) (uf ro : Bool) (s : State) : (logFlagged e uf ro s).cnt = s.cnt := rfl
@[simp] theorem logFlagged_nodeType (e : Event) (uf ro : Bool) (s : State) : (logFlagged e uf ro s).nodeType = s.nodeType := rfl
@[simp] theorem logFlagged_uid0 (e : Event) (uf ro : Bool) (s : State) : (logFlagged e uf ro s).uid0 = s.uid0 := rfl
@[simp] theorem logFlagged_uid1 (e : Event) (uf ro : Bool) (s : State) : (logFlagged e uf ro s).uid1 = s.uid1 := rfl
@[simp] theorem logFlagged_swver (e : Event) (uf ro : Bool) (s : State) : (logFlagged e uf ro s).swver = s.swver := rfl
@[simp] theorem logFlagged_batt (e : Event) (uf ro : Bool) (s : State) : (logFlagged e uf ro s).batt = s.batt := rfl
@[simp] theorem logFlagged_temp (e : Event) (uf ro : Bool) (s : State) : (logFlagged e uf ro s).temp = s.temp := rfl
@[simp] theorem logFlagged_uva (e : Event) (uf ro : Bool) (s : State) : (logFlagged e uf ro s).uva = s.uva := rfl
@[simp] theorem logFlagged_uvb (e : Event) (uf ro : Bool) (s : State) : (logFlagged e uf ro s).uvb = s.uvb := rfl
@[simp] theorem logFlagged_comp1 (e : Event) (uf ro : Bool) (s : State) : (logFlagged e uf ro s).comp1 = s.comp1 := rfl
@[simp] theorem logFlagged_comp2 (e : Event) (uf ro : Bool) (s : State) : (logFlagged e uf ro s).comp2 = s.comp2 := rfl
@[simp] theorem logFlagged_light (e : Event) (uf ro : Bool) (s : State) : (logFlagged e uf ro s).light = s.light := rfl
@[simp] theorem logFlagged_diag (e : Event) (uf ro : Bool) (s : State) : (logFlagged e uf ro s).diag = s.diag := rfl
@[simp] theorem logFlagged_frame (e : Event) (uf ro : Bool) (s : State) : (logFlagged e uf ro s).frame = s.frame := rfl
@[simp] theorem logFlagged_phy (e : Event) (uf ro : Bool) (s : State) : (logFlagged e uf ro s).phy = s.phy := rfl
@[simp] theorem logFlagged_ci (e : Event) (uf ro : Bool) (s : State) : (logFlagged e uf ro s).ci = s.ci := rfl
@[simp] theorem logFlagged_ackstat (e : Event) (uf ro : Bool) (s : State) : (logFlagged e uf ro s).ackstat = s.ackstat := rfl
@[simp] theorem logFlagged_rxbuf (e : Event) (uf ro : Bool) (s : State) : (logFlagged e uf ro s).rxbuf = s.rxbuf := rfl
@[simp] theorem logFlagged_fs (e : Event) (uf ro : Bool) (s : State) : (logFlagged e uf ro s).fs = s.fs := rfl
@[simp] theorem logFlagged_seq (e : Event) (uf ro : Bool) (s : State) : (logFlagged e uf ro s).seq = s.seq := rfl
@[simp] theorem logFlagged_pins (e : Event) (uf ro : Bool) (s : State) : (logFlagged e uf ro s).pins = s.pins := rfl
@[simp] theorem logFlagged_trace (e : Event) (uf ro : Bool) (s : State) : (logFlagged e uf ro s).trace = s.trace ++ [⟨e, ⟨uf, ro, s.phy.poisoned⟩⟩] := rfl
@[simp] theorem logFlagged_initd (e : Event) (uf ro : Bool) (s : State) : (logFlagged e uf ro s).initd = s.initd := rfl
@[simp] theorem logFlagged_argLatch (e : Event) (uf ro : Bool) (s : State) : (logFlagged e uf ro s).argLatch = s.argLatch := rfl
@[simp] theorem logFlagged_host (e : Event) (uf ro : Bool) (s : State) : (logFlagged e uf ro s).host = s.host := rfl
@[simp] theorem logFlagged_rdata (e : Event) (uf ro : Bool) (s : State) : (logFlagged e uf ro s).rdata = s.rdata := rfl
@[simp] theorem logFlagged_sched (e : Event) (uf ro : Bool) (s : State) : (logFlagged e uf ro s).sched = s.sched := rfl
@[simp] theorem logFlagged_turns (e : Event) (uf ro : Bool) (s : State) : (logFlagged e uf ro s).turns = s.turns := rfl
@[simp] theorem logFlagged_env (e : Event) (uf ro : Bool) (s : State) : (logFlagged e uf ro s).env = s.env := rfl

/-! ### log -/

@[simp] theorem log_ctrl (e : Event) (s : State) : (log e s).ctrl = s.ctrl := rfl
@[simp] theorem log_status (e : Event) (s : State) : (log e s).status = s.status := rfl
@[simp] theorem log_arg (e : Event) (s : State) : (log e s).arg = s.arg := rfl
@[simp] theorem log_cmd (e : Event) (s : State) : (log e s).cmd = s.cmd := rfl
@[simp] theorem log_res (e : Event) (s : State) : (log e s).res = s.res := rfl
@[simp] theorem log_clkHz (e : Event) (s : State) : (log e s).clkHz = s.clkHz := rfl
@[simp] theorem log_laddr (e : Event) (s : State) : (log e s).laddr = s.laddr := rfl
@[simp] theorem log_cnt (e : Event) (s : State) : (log e s).cnt = s.cnt := rfl
@[simp] theorem log_nodeType (e : Event) (s : State) : (log e s).nodeType = s.nodeType := rfl
@[simp] theorem log_uid0 (e : Event) (s : State) : (log e s).uid0 = s.uid0 := rfl
@[simp] theorem log_uid1 (e : Event) (s : State) : (log e s).uid1 = s.uid1 := rfl
@[simp] theorem log_swver (e : Event) (s : State) : (log e s).swver = s.swver := rfl
@[simp] theorem log_batt (e : Event) (s : State) : (log e s).batt = s.batt := rfl
@[simp] theorem log_temp (e : Event) (s : State) : (log e s).temp = s.temp := rfl
@[simp] theorem log_uva (e : Event) (s : State) : (log e s).uva = s.uva := rfl
@[simp] theorem log_uvb (e : Event) (s : State) : (log e s).uvb = s.uvb := rfl
@[simp] theorem log_comp1 (e : Event) (s : State) : (log e s).comp1 = s.comp1 := rfl
@[simp] theorem log_comp2 (e : Event) (s : State) : (log e s).comp2 = s.comp2 := rfl
@[simp] theorem log_light (e : Event) (s : State) : (log e s).light = s.light := rfl
@[simp] theorem log_diag (e : Event) (s : State) : (log e s).diag = s.diag := rfl
@[simp] theorem log_frame (e : Event) (s : State) : (log e s).frame = s.frame := rfl
@[simp] theorem log_phy (e : Event) (s : State) : (log e s).phy = s.phy := rfl
@[simp] theorem log_ci (e : Event) (s : State) : (log e s).ci = s.ci := rfl
@[simp] theorem log_ackstat (e : Event) (s : State) : (log e s).ackstat = s.ackstat := rfl
@[simp] theorem log_rxbuf (e : Event) (s : State) : (log e s).rxbuf = s.rxbuf := rfl
@[simp] theorem log_fs (e : Event) (s : State) : (log e s).fs = s.fs := rfl
@[simp] theorem log_seq (e : Event) (s : State) : (log e s).seq = s.seq := rfl
@[simp] theorem log_pins (e : Event) (s : State) : (log e s).pins = s.pins := rfl
@[simp] theorem log_trace (e : Event) (s : State) : (log e s).trace = s.trace ++ [⟨e, ⟨false, false, s.phy.poisoned⟩⟩] := rfl
@[simp] theorem log_initd (e : Event) (s : State) : (log e s).initd = s.initd := rfl
@[simp] theorem log_argLatch (e : Event) (s : State) : (log e s).argLatch = s.argLatch := rfl
@[simp] theorem log_host (e : Event) (s : State) : (log e s).host = s.host := rfl
@[simp] theorem log_rdata (e : Event) (s : State) : (log e s).rdata = s.rdata := rfl
@[simp] theorem log_sched (e : Event) (s : State) : (log e s).sched = s.sched := rfl
@[simp] theorem log_turns (e : Event) (s : State) : (log e s).turns = s.turns := rfl
@[simp] theorem log_env (e : Event) (s : State) : (log e s).env = s.env := rfl

/-! ### collide -/

@[simp] theorem collide_ctrl (x : Collider) (s : State) : (collide x s).ctrl = s.ctrl := rfl
@[simp] theorem collide_status (x : Collider) (s : State) : (collide x s).status = { s.status with coll := true } := rfl
@[simp] theorem collide_arg (x : Collider) (s : State) : (collide x s).arg = s.arg := rfl
@[simp] theorem collide_cmd (x : Collider) (s : State) : (collide x s).cmd = s.cmd := rfl
@[simp] theorem collide_res (x : Collider) (s : State) : (collide x s).res = s.res := rfl
@[simp] theorem collide_clkHz (x : Collider) (s : State) : (collide x s).clkHz = s.clkHz := rfl
@[simp] theorem collide_laddr (x : Collider) (s : State) : (collide x s).laddr = s.laddr := rfl
@[simp] theorem collide_cnt (x : Collider) (s : State) : (collide x s).cnt = s.cnt := rfl
@[simp] theorem collide_nodeType (x : Collider) (s : State) : (collide x s).nodeType = s.nodeType := rfl
@[simp] theorem collide_uid0 (x : Collider) (s : State) : (collide x s).uid0 = s.uid0 := rfl
@[simp] theorem collide_uid1 (x : Collider) (s : State) : (collide x s).uid1 = s.uid1 := rfl
@[simp] theorem collide_swver (x : Collider) (s : State) : (collide x s).swver = s.swver := rfl
@[simp] theorem collide_batt (x : Collider) (s : State) : (collide x s).batt = s.batt := rfl
@[simp] theorem collide_temp (x : Collider) (s : State) : (collide x s).temp = s.temp := rfl
@[simp] theorem collide_uva (x : Collider) (s : State) : (collide x s).uva = s.uva := rfl
@[simp] theorem collide_uvb (x : Collider) (s : State) : (collide x s).uvb = s.uvb := rfl
@[simp] theorem collide_comp1 (x : Collider) (s : State) : (collide x s).comp1 = s.comp1 := rfl
@[simp] theorem collide_comp2 (x : Collider) (s : State) : (collide x s).comp2 = s.comp2 := rfl
@[simp] theorem collide_light (x : Collider) (s : State) : (collide x s).light = s.light := rfl
@[simp] theorem collide_diag (x : Collider) (s : State) : (collide x s).diag = { s.diag with coll := s.diag.coll + 1 } := rfl
@[simp] theorem collide_frame (x : Collider) (s : State) : (collide x s).frame = s.frame := rfl
@[simp] theorem collide_phy (x : Collider) (s : State) : (collide x s).phy = ⟨none, true⟩ := rfl
@[simp] theorem collide_ci (x : Collider) (s : State) : (collide x s).ci = s.ci := rfl
@[simp] theorem collide_ackstat (x : Collider) (s : State) : (collide x s).ackstat = s.ackstat := rfl
@[simp] theorem collide_rxbuf (x : Collider) (s : State) : (collide x s).rxbuf = s.rxbuf := rfl
@[simp] theorem collide_fs (x : Collider) (s : State) : (collide x s).fs = s.fs := rfl
@[simp] theorem collide_seq (x : Collider) (s : State) : (collide x s).seq = s.seq := rfl
@[simp] theorem collide_pins (x : Collider) (s : State) : (collide x s).pins = s.pins := rfl
@[simp] theorem collide_trace (x : Collider) (s : State) : (collide x s).trace = s.trace ++ [⟨.collision x, ⟨false, false, s.phy.poisoned⟩⟩] := rfl
@[simp] theorem collide_initd (x : Collider) (s : State) : (collide x s).initd = s.initd := rfl
@[simp] theorem collide_argLatch (x : Collider) (s : State) : (collide x s).argLatch = s.argLatch := rfl
@[simp] theorem collide_host (x : Collider) (s : State) : (collide x s).host = s.host := rfl
@[simp] theorem collide_rdata (x : Collider) (s : State) : (collide x s).rdata = s.rdata := rfl
@[simp] theorem collide_sched (x : Collider) (s : State) : (collide x s).sched = s.sched := rfl
@[simp] theorem collide_turns (x : Collider) (s : State) : (collide x s).turns = s.turns := rfl
@[simp] theorem collide_env (x : Collider) (s : State) : (collide x s).env = s.env := rfl

/-! ### recordTimeout -/

@[simp] theorem recordTimeout_ctrl (s : State) : (recordTimeout s).ctrl = s.ctrl := rfl
@[simp] theorem recordTimeout_status (s : State) : (recordTimeout s).status = { s.status with tmo := true } := rfl
@[simp] theorem recordTimeout_arg (s : State) : (recordTimeout s).arg = s.arg := rfl
@[simp] theorem recordTimeout_cmd (s : State) : (recordTimeout s).cmd = s.cmd := rfl
@[simp] theorem recordTimeout_res (s : State) : (recordTimeout s).res = s.res := rfl
@[simp] theorem recordTimeout_clkHz (s : State) : (recordTimeout s).clkHz = s.clkHz := rfl
@[simp] theorem recordTimeout_laddr (s : State) : (recordTimeout s).laddr = s.laddr := rfl
@[simp] theorem recordTimeout_cnt (s : State) : (recordTimeout s).cnt = s.cnt := rfl
@[simp] theorem recordTimeout_nodeType (s : State) : (recordTimeout s).nodeType = s.nodeType := rfl
@[simp] theorem recordTimeout_uid0 (s : State) : (recordTimeout s).uid0 = s.uid0 := rfl
@[simp] theorem recordTimeout_uid1 (s : State) : (recordTimeout s).uid1 = s.uid1 := rfl
@[simp] theorem recordTimeout_swver (s : State) : (recordTimeout s).swver = s.swver := rfl
@[simp] theorem recordTimeout_batt (s : State) : (recordTimeout s).batt = s.batt := rfl
@[simp] theorem recordTimeout_temp (s : State) : (recordTimeout s).temp = s.temp := rfl
@[simp] theorem recordTimeout_uva (s : State) : (recordTimeout s).uva = s.uva := rfl
@[simp] theorem recordTimeout_uvb (s : State) : (recordTimeout s).uvb = s.uvb := rfl
@[simp] theorem recordTimeout_comp1 (s : State) : (recordTimeout s).comp1 = s.comp1 := rfl
@[simp] theorem recordTimeout_comp2 (s : State) : (recordTimeout s).comp2 = s.comp2 := rfl
@[simp] theorem recordTimeout_light (s : State) : (recordTimeout s).light = s.light := rfl
@[simp] theorem recordTimeout_diag (s : State) : (recordTimeout s).diag = { s.diag with tmo := s.diag.tmo + 1 } := rfl
@[simp] theorem recordTimeout_frame (s : State) : (recordTimeout s).frame = s.frame := rfl
@[simp] theorem recordTimeout_phy (s : State) : (recordTimeout s).phy = s.phy := rfl
@[simp] theorem recordTimeout_ci (s : State) : (recordTimeout s).ci = s.ci := rfl
@[simp] theorem recordTimeout_ackstat (s : State) : (recordTimeout s).ackstat = s.ackstat := rfl
@[simp] theorem recordTimeout_rxbuf (s : State) : (recordTimeout s).rxbuf = s.rxbuf := rfl
@[simp] theorem recordTimeout_fs (s : State) : (recordTimeout s).fs = s.fs := rfl
@[simp] theorem recordTimeout_seq (s : State) : (recordTimeout s).seq = s.seq := rfl
@[simp] theorem recordTimeout_pins (s : State) : (recordTimeout s).pins = s.pins := rfl
@[simp] theorem recordTimeout_trace (s : State) : (recordTimeout s).trace = s.trace := rfl
@[simp] theorem recordTimeout_initd (s : State) : (recordTimeout s).initd = s.initd := rfl
@[simp] theorem recordTimeout_argLatch (s : State) : (recordTimeout s).argLatch = s.argLatch := rfl
@[simp] theorem recordTimeout_host (s : State) : (recordTimeout s).host = s.host := rfl
@[simp] theorem recordTimeout_rdata (s : State) : (recordTimeout s).rdata = s.rdata := rfl
@[simp] theorem recordTimeout_sched (s : State) : (recordTimeout s).sched = s.sched := rfl
@[simp] theorem recordTimeout_turns (s : State) : (recordTimeout s).turns = s.turns := rfl
@[simp] theorem recordTimeout_env (s : State) : (recordTimeout s).env = s.env := rfl

/-! ### latchCommand -/

@[simp] theorem latchCommand_ctrl (w : Word) (s : State) : (latchCommand w s).ctrl = s.ctrl := rfl
@[simp] theorem latchCommand_status (w : Word) (s : State) : (latchCommand w s).status = s.status := rfl
@[simp] theorem latchCommand_arg (w : Word) (s : State) : (latchCommand w s).arg = s.arg := rfl
@[simp] theorem latchCommand_cmd (w : Word) (s : State) : (latchCommand w s).cmd = w := rfl
@[simp] theorem latchCommand_res (w : Word) (s : State) : (latchCommand w s).res = s.res := rfl
@[simp] theorem latchCommand_clkHz (w : Word) (s : State) : (latchCommand w s).clkHz = s.clkHz := rfl
@[simp] theorem latchCommand_laddr (w : Word) (s : State) : (latchCommand w s).laddr = s.laddr := rfl
@[simp] theorem latchCommand_cnt (w : Word) (s : State) : (latchCommand w s).cnt = s.cnt := rfl
@[simp] theorem latchCommand_nodeType (w : Word) (s : State) : (latchCommand w s).nodeType = s.nodeType := rfl
@[simp] theorem latchCommand_uid0 (w : Word) (s : State) : (latchCommand w s).uid0 = s.uid0 := rfl
@[simp] theorem latchCommand_uid1 (w : Word) (s : State) : (latchCommand w s).uid1 = s.uid1 := rfl
@[simp] theorem latchCommand_swver (w : Word) (s : State) : (latchCommand w s).swver = s.swver := rfl
@[simp] theorem latchCommand_batt (w : Word) (s : State) : (latchCommand w s).batt = s.batt := rfl
@[simp] theorem latchCommand_temp (w : Word) (s : State) : (latchCommand w s).temp = s.temp := rfl
@[simp] theorem latchCommand_uva (w : Word) (s : State) : (latchCommand w s).uva = s.uva := rfl
@[simp] theorem latchCommand_uvb (w : Word) (s : State) : (latchCommand w s).uvb = s.uvb := rfl
@[simp] theorem latchCommand_comp1 (w : Word) (s : State) : (latchCommand w s).comp1 = s.comp1 := rfl
@[simp] theorem latchCommand_comp2 (w : Word) (s : State) : (latchCommand w s).comp2 = s.comp2 := rfl
@[simp] theorem latchCommand_light (w : Word) (s : State) : (latchCommand w s).light = s.light := rfl
@[simp] theorem latchCommand_diag (w : Word) (s : State) : (latchCommand w s).diag = s.diag := rfl
@[simp] theorem latchCommand_frame (w : Word) (s : State) : (latchCommand w s).frame = s.frame := rfl
@[simp] theorem latchCommand_phy (w : Word) (s : State) : (latchCommand w s).phy = s.phy := rfl
@[simp] theorem latchCommand_ci (w : Word) (s : State) : (latchCommand w s).ci = s.ci := rfl
@[simp] theorem latchCommand_ackstat (w : Word) (s : State) : (latchCommand w s).ackstat = s.ackstat := rfl
@[simp] theorem latchCommand_rxbuf (w : Word) (s : State) : (latchCommand w s).rxbuf = s.rxbuf := rfl
@[simp] theorem latchCommand_fs (w : Word) (s : State) : (latchCommand w s).fs = s.fs := rfl
@[simp] theorem latchCommand_seq (w : Word) (s : State) : (latchCommand w s).seq = s.seq := rfl
@[simp] theorem latchCommand_pins (w : Word) (s : State) : (latchCommand w s).pins = s.pins := rfl
@[simp] theorem latchCommand_trace (w : Word) (s : State) : (latchCommand w s).trace = s.trace := rfl
@[simp] theorem latchCommand_initd (w : Word) (s : State) : (latchCommand w s).initd = s.initd := rfl
@[simp] theorem latchCommand_argLatch (w : Word) (s : State) : (latchCommand w s).argLatch = s.arg := rfl
@[simp] theorem latchCommand_host (w : Word) (s : State) : (latchCommand w s).host = s.host := rfl
@[simp] theorem latchCommand_rdata (w : Word) (s : State) : (latchCommand w s).rdata = s.rdata := rfl
@[simp] theorem latchCommand_sched (w : Word) (s : State) : (latchCommand w s).sched = s.sched := rfl
@[simp] theorem latchCommand_turns (w : Word) (s : State) : (latchCommand w s).turns = s.turns := rfl
@[simp] theorem latchCommand_env (w : Word) (s : State) : (latchCommand w s).env = s.env := rfl

/-! ### clearStatus -/

@[simp] theorem clearStatus_ctrl (v : Word) (s : State) : (clearStatus v s).ctrl = s.ctrl := rfl
@[simp] theorem clearStatus_status (v : Word) (s : State) : (clearStatus v s).status = { s.status with
      tmo := s.status.tmo && !v.getLsbD 3
      coll := s.status.coll && !v.getLsbD 4
      err := s.status.err && !v.getLsbD 8
      errOvf := s.status.errOvf && !v.getLsbD 9
      wwb := s.status.wwb && !v.getLsbD 10
      errcode := if v.getLsbD 8 then .none else s.status.errcode } := rfl
@[simp] theorem clearStatus_arg (v : Word) (s : State) : (clearStatus v s).arg = s.arg := rfl
@[simp] theorem clearStatus_cmd (v : Word) (s : State) : (clearStatus v s).cmd = s.cmd := rfl
@[simp] theorem clearStatus_res (v : Word) (s : State) : (clearStatus v s).res = s.res := rfl
@[simp] theorem clearStatus_clkHz (v : Word) (s : State) : (clearStatus v s).clkHz = s.clkHz := rfl
@[simp] theorem clearStatus_laddr (v : Word) (s : State) : (clearStatus v s).laddr = s.laddr := rfl
@[simp] theorem clearStatus_cnt (v : Word) (s : State) : (clearStatus v s).cnt = s.cnt := rfl
@[simp] theorem clearStatus_nodeType (v : Word) (s : State) : (clearStatus v s).nodeType = s.nodeType := rfl
@[simp] theorem clearStatus_uid0 (v : Word) (s : State) : (clearStatus v s).uid0 = s.uid0 := rfl
@[simp] theorem clearStatus_uid1 (v : Word) (s : State) : (clearStatus v s).uid1 = s.uid1 := rfl
@[simp] theorem clearStatus_swver (v : Word) (s : State) : (clearStatus v s).swver = s.swver := rfl
@[simp] theorem clearStatus_batt (v : Word) (s : State) : (clearStatus v s).batt = s.batt := rfl
@[simp] theorem clearStatus_temp (v : Word) (s : State) : (clearStatus v s).temp = s.temp := rfl
@[simp] theorem clearStatus_uva (v : Word) (s : State) : (clearStatus v s).uva = s.uva := rfl
@[simp] theorem clearStatus_uvb (v : Word) (s : State) : (clearStatus v s).uvb = s.uvb := rfl
@[simp] theorem clearStatus_comp1 (v : Word) (s : State) : (clearStatus v s).comp1 = s.comp1 := rfl
@[simp] theorem clearStatus_comp2 (v : Word) (s : State) : (clearStatus v s).comp2 = s.comp2 := rfl
@[simp] theorem clearStatus_light (v : Word) (s : State) : (clearStatus v s).light = s.light := rfl
@[simp] theorem clearStatus_diag (v : Word) (s : State) : (clearStatus v s).diag = s.diag := rfl
@[simp] theorem clearStatus_frame (v : Word) (s : State) : (clearStatus v s).frame = s.frame := rfl
@[simp] theorem clearStatus_phy (v : Word) (s : State) : (clearStatus v s).phy = s.phy := rfl
@[simp] theorem clearStatus_ci (v : Word) (s : State) : (clearStatus v s).ci = s.ci := rfl
@[simp] theorem clearStatus_ackstat (v : Word) (s : State) : (clearStatus v s).ackstat = s.ackstat := rfl
@[simp] theorem clearStatus_rxbuf (v : Word) (s : State) : (clearStatus v s).rxbuf = s.rxbuf := rfl
@[simp] theorem clearStatus_fs (v : Word) (s : State) : (clearStatus v s).fs = s.fs := rfl
@[simp] theorem clearStatus_seq (v : Word) (s : State) : (clearStatus v s).seq = s.seq := rfl
@[simp] theorem clearStatus_pins (v : Word) (s : State) : (clearStatus v s).pins = s.pins := rfl
@[simp] theorem clearStatus_trace (v : Word) (s : State) : (clearStatus v s).trace = s.trace := rfl
@[simp] theorem clearStatus_initd (v : Word) (s : State) : (clearStatus v s).initd = s.initd := rfl
@[simp] theorem clearStatus_argLatch (v : Word) (s : State) : (clearStatus v s).argLatch = s.argLatch := rfl
@[simp] theorem clearStatus_host (v : Word) (s : State) : (clearStatus v s).host = s.host := rfl
@[simp] theorem clearStatus_rdata (v : Word) (s : State) : (clearStatus v s).rdata = s.rdata := rfl
@[simp] theorem clearStatus_sched (v : Word) (s : State) : (clearStatus v s).sched = s.sched := rfl
@[simp] theorem clearStatus_turns (v : Word) (s : State) : (clearStatus v s).turns = s.turns := rfl
@[simp] theorem clearStatus_env (v : Word) (s : State) : (clearStatus v s).env = s.env := rfl

/-! ### sampleSda -/

@[simp] theorem sampleSda_ctrl (s : State) : ((sampleSda s).2).ctrl = s.ctrl := rfl
@[simp] theorem sampleSda_status (s : State) : ((sampleSda s).2).status = s.status := rfl
@[simp] theorem sampleSda_arg (s : State) : ((sampleSda s).2).arg = s.arg := rfl
@[simp] theorem sampleSda_cmd (s : State) : ((sampleSda s).2).cmd = s.cmd := rfl
@[simp] theorem sampleSda_res (s : State) : ((sampleSda s).2).res = s.res := rfl
@[simp] theorem sampleSda_clkHz (s : State) : ((sampleSda s).2).clkHz = s.clkHz := rfl
@[simp] theorem sampleSda_laddr (s : State) : ((sampleSda s).2).laddr = s.laddr := rfl
@[simp] theorem sampleSda_cnt (s : State) : ((sampleSda s).2).cnt = s.cnt := rfl
@[simp] theorem sampleSda_nodeType (s : State) : ((sampleSda s).2).nodeType = s.nodeType := rfl
@[simp] theorem sampleSda_uid0 (s : State) : ((sampleSda s).2).uid0 = s.uid0 := rfl
@[simp] theorem sampleSda_uid1 (s : State) : ((sampleSda s).2).uid1 = s.uid1 := rfl
@[simp] theorem sampleSda_swver (s : State) : ((sampleSda s).2).swver = s.swver := rfl
@[simp] theorem sampleSda_batt (s : State) : ((sampleSda s).2).batt = s.batt := rfl
@[simp] theorem sampleSda_temp (s : State) : ((sampleSda s).2).temp = s.temp := rfl
@[simp] theorem sampleSda_uva (s : State) : ((sampleSda s).2).uva = s.uva := rfl
@[simp] theorem sampleSda_uvb (s : State) : ((sampleSda s).2).uvb = s.uvb := rfl
@[simp] theorem sampleSda_comp1 (s : State) : ((sampleSda s).2).comp1 = s.comp1 := rfl
@[simp] theorem sampleSda_comp2 (s : State) : ((sampleSda s).2).comp2 = s.comp2 := rfl
@[simp] theorem sampleSda_light (s : State) : ((sampleSda s).2).light = s.light := rfl
@[simp] theorem sampleSda_diag (s : State) : ((sampleSda s).2).diag = s.diag := rfl
@[simp] theorem sampleSda_frame (s : State) : ((sampleSda s).2).frame = s.frame := rfl
@[simp] theorem sampleSda_phy (s : State) : ((sampleSda s).2).phy = s.phy := rfl
@[simp] theorem sampleSda_ci (s : State) : ((sampleSda s).2).ci = s.ci := rfl
@[simp] theorem sampleSda_ackstat (s : State) : ((sampleSda s).2).ackstat = s.ackstat := rfl
@[simp] theorem sampleSda_rxbuf (s : State) : ((sampleSda s).2).rxbuf = s.rxbuf := rfl
@[simp] theorem sampleSda_fs (s : State) : ((sampleSda s).2).fs = s.fs := rfl
@[simp] theorem sampleSda_seq (s : State) : ((sampleSda s).2).seq = s.seq := rfl
@[simp] theorem sampleSda_pins (s : State) : ((sampleSda s).2).pins = s.pins := rfl
@[simp] theorem sampleSda_trace (s : State) : ((sampleSda s).2).trace = s.trace ++ [⟨.sda s.env.takeSda.1, ⟨false, false, s.phy.poisoned⟩⟩] := rfl
@[simp] theorem sampleSda_initd (s : State) : ((sampleSda s).2).initd = s.initd := rfl
@[simp] theorem sampleSda_argLatch (s : State) : ((sampleSda s).2).argLatch = s.argLatch := rfl
@[simp] theorem sampleSda_host (s : State) : ((sampleSda s).2).host = s.host := rfl
@[simp] theorem sampleSda_rdata (s : State) : ((sampleSda s).2).rdata = s.rdata := rfl
@[simp] theorem sampleSda_sched (s : State) : ((sampleSda s).2).sched = s.sched := rfl
@[simp] theorem sampleSda_turns (s : State) : ((sampleSda s).2).turns = s.turns := rfl
@[simp] theorem sampleSda_env (s : State) : ((sampleSda s).2).env = s.env.takeSda.2 := rfl

/-! ### driveScl -/

@[simp] theorem driveScl_ctrl (level : Bool) (s : State) : (driveScl level s).ctrl = s.ctrl := rfl
@[simp] theorem driveScl_status (level : Bool) (s : State) : (driveScl level s).status = s.status := rfl
@[simp] theorem driveScl_arg (level : Bool) (s : State) : (driveScl level s).arg = s.arg := rfl
@[simp] theorem driveScl_cmd (level : Bool) (s : State) : (driveScl level s).cmd = s.cmd := rfl
@[simp] theorem driveScl_res (level : Bool) (s : State) : (driveScl level s).res = s.res := rfl
@[simp] theorem driveScl_clkHz (level : Bool) (s : State) : (driveScl level s).clkHz = s.clkHz := rfl
@[simp] theorem driveScl_laddr (level : Bool) (s : State) : (driveScl level s).laddr = s.laddr := rfl
@[simp] theorem driveScl_cnt (level : Bool) (s : State) : (driveScl level s).cnt = s.cnt := rfl
@[simp] theorem driveScl_nodeType (level : Bool) (s : State) : (driveScl level s).nodeType = s.nodeType := rfl
@[simp] theorem driveScl_uid0 (level : Bool) (s : State) : (driveScl level s).uid0 = s.uid0 := rfl
@[simp] theorem driveScl_uid1 (level : Bool) (s : State) : (driveScl level s).uid1 = s.uid1 := rfl
@[simp] theorem driveScl_swver (level : Bool) (s : State) : (driveScl level s).swver = s.swver := rfl
@[simp] theorem driveScl_batt (level : Bool) (s : State) : (driveScl level s).batt = s.batt := rfl
@[simp] theorem driveScl_temp (level : Bool) (s : State) : (driveScl level s).temp = s.temp := rfl
@[simp] theorem driveScl_uva (level : Bool) (s : State) : (driveScl level s).uva = s.uva := rfl
@[simp] theorem driveScl_uvb (level : Bool) (s : State) : (driveScl level s).uvb = s.uvb := rfl
@[simp] theorem driveScl_comp1 (level : Bool) (s : State) : (driveScl level s).comp1 = s.comp1 := rfl
@[simp] theorem driveScl_comp2 (level : Bool) (s : State) : (driveScl level s).comp2 = s.comp2 := rfl
@[simp] theorem driveScl_light (level : Bool) (s : State) : (driveScl level s).light = s.light := rfl
@[simp] theorem driveScl_diag (level : Bool) (s : State) : (driveScl level s).diag = s.diag := rfl
@[simp] theorem driveScl_frame (level : Bool) (s : State) : (driveScl level s).frame = s.frame := rfl
@[simp] theorem driveScl_phy (level : Bool) (s : State) : (driveScl level s).phy = s.phy := rfl
@[simp] theorem driveScl_ci (level : Bool) (s : State) : (driveScl level s).ci = s.ci := rfl
@[simp] theorem driveScl_ackstat (level : Bool) (s : State) : (driveScl level s).ackstat = s.ackstat := rfl
@[simp] theorem driveScl_rxbuf (level : Bool) (s : State) : (driveScl level s).rxbuf = s.rxbuf := rfl
@[simp] theorem driveScl_fs (level : Bool) (s : State) : (driveScl level s).fs = s.fs := rfl
@[simp] theorem driveScl_seq (level : Bool) (s : State) : (driveScl level s).seq = s.seq := rfl
@[simp] theorem driveScl_pins (level : Bool) (s : State) : (driveScl level s).pins = { s.pins with sclLevel := level } := rfl
@[simp] theorem driveScl_trace (level : Bool) (s : State) : (driveScl level s).trace = s.trace ++ [⟨.scl level, ⟨false, false, s.phy.poisoned⟩⟩] := rfl
@[simp] theorem driveScl_initd (level : Bool) (s : State) : (driveScl level s).initd = s.initd := rfl
@[simp] theorem driveScl_argLatch (level : Bool) (s : State) : (driveScl level s).argLatch = s.argLatch := rfl
@[simp] theorem driveScl_host (level : Bool) (s : State) : (driveScl level s).host = s.host := rfl
@[simp] theorem driveScl_rdata (level : Bool) (s : State) : (driveScl level s).rdata = s.rdata := rfl
@[simp] theorem driveScl_sched (level : Bool) (s : State) : (driveScl level s).sched = s.sched := rfl
@[simp] theorem driveScl_turns (level : Bool) (s : State) : (driveScl level s).turns = s.turns := rfl
@[simp] theorem driveScl_env (level : Bool) (s : State) : (driveScl level s).env = s.env := rfl

/-! ### restoreScl -/

@[simp] theorem restoreScl_ctrl (s : State) : (restoreScl s).ctrl = s.ctrl := rfl
@[simp] theorem restoreScl_status (s : State) : (restoreScl s).status = s.status := rfl
@[simp] theorem restoreScl_arg (s : State) : (restoreScl s).arg = s.arg := rfl
@[simp] theorem restoreScl_cmd (s : State) : (restoreScl s).cmd = s.cmd := rfl
@[simp] theorem restoreScl_res (s : State) : (restoreScl s).res = s.res := rfl
@[simp] theorem restoreScl_clkHz (s : State) : (restoreScl s).clkHz = s.clkHz := rfl
@[simp] theorem restoreScl_laddr (s : State) : (restoreScl s).laddr = s.laddr := rfl
@[simp] theorem restoreScl_cnt (s : State) : (restoreScl s).cnt = s.cnt := rfl
@[simp] theorem restoreScl_nodeType (s : State) : (restoreScl s).nodeType = s.nodeType := rfl
@[simp] theorem restoreScl_uid0 (s : State) : (restoreScl s).uid0 = s.uid0 := rfl
@[simp] theorem restoreScl_uid1 (s : State) : (restoreScl s).uid1 = s.uid1 := rfl
@[simp] theorem restoreScl_swver (s : State) : (restoreScl s).swver = s.swver := rfl
@[simp] theorem restoreScl_batt (s : State) : (restoreScl s).batt = s.batt := rfl
@[simp] theorem restoreScl_temp (s : State) : (restoreScl s).temp = s.temp := rfl
@[simp] theorem restoreScl_uva (s : State) : (restoreScl s).uva = s.uva := rfl
@[simp] theorem restoreScl_uvb (s : State) : (restoreScl s).uvb = s.uvb := rfl
@[simp] theorem restoreScl_comp1 (s : State) : (restoreScl s).comp1 = s.comp1 := rfl
@[simp] theorem restoreScl_comp2 (s : State) : (restoreScl s).comp2 = s.comp2 := rfl
@[simp] theorem restoreScl_light (s : State) : (restoreScl s).light = s.light := rfl
@[simp] theorem restoreScl_diag (s : State) : (restoreScl s).diag = s.diag := rfl
@[simp] theorem restoreScl_frame (s : State) : (restoreScl s).frame = s.frame := rfl
@[simp] theorem restoreScl_phy (s : State) : (restoreScl s).phy = s.phy := rfl
@[simp] theorem restoreScl_ci (s : State) : (restoreScl s).ci = s.ci := rfl
@[simp] theorem restoreScl_ackstat (s : State) : (restoreScl s).ackstat = s.ackstat := rfl
@[simp] theorem restoreScl_rxbuf (s : State) : (restoreScl s).rxbuf = s.rxbuf := rfl
@[simp] theorem restoreScl_fs (s : State) : (restoreScl s).fs = s.fs := rfl
@[simp] theorem restoreScl_seq (s : State) : (restoreScl s).seq = s.seq := rfl
@[simp] theorem restoreScl_pins (s : State) : (restoreScl s).pins = { s.pins with sclOwner := restoredOwner s } := rfl
@[simp] theorem restoreScl_trace (s : State) : (restoreScl s).trace = s.trace ++ [⟨.sclctl (restoredOwner s), ⟨false, false, s.phy.poisoned⟩⟩] := rfl
@[simp] theorem restoreScl_initd (s : State) : (restoreScl s).initd = s.initd := rfl
@[simp] theorem restoreScl_argLatch (s : State) : (restoreScl s).argLatch = s.argLatch := rfl
@[simp] theorem restoreScl_host (s : State) : (restoreScl s).host = s.host := rfl
@[simp] theorem restoreScl_rdata (s : State) : (restoreScl s).rdata = s.rdata := rfl
@[simp] theorem restoreScl_sched (s : State) : (restoreScl s).sched = s.sched := rfl
@[simp] theorem restoreScl_turns (s : State) : (restoreScl s).turns = s.turns := rfl
@[simp] theorem restoreScl_env (s : State) : (restoreScl s).env = s.env := rfl

/-! ### foundHigh -/

@[simp] theorem foundHigh_ctrl (s : State) : (foundHigh s).ctrl = s.ctrl := rfl
@[simp] theorem foundHigh_status (s : State) : (foundHigh s).status = { s.status with recovered := false, stuck := false } := rfl
@[simp] theorem foundHigh_arg (s : State) : (foundHigh s).arg = s.arg := rfl
@[simp] theorem foundHigh_cmd (s : State) : (foundHigh s).cmd = s.cmd := rfl
@[simp] theorem foundHigh_res (s : State) : (foundHigh s).res = s.res := rfl
@[simp] theorem foundHigh_clkHz (s : State) : (foundHigh s).clkHz = s.clkHz := rfl
@[simp] theorem foundHigh_laddr (s : State) : (foundHigh s).laddr = s.laddr := rfl
@[simp] theorem foundHigh_cnt (s : State) : (foundHigh s).cnt = s.cnt := rfl
@[simp] theorem foundHigh_nodeType (s : State) : (foundHigh s).nodeType = s.nodeType := rfl
@[simp] theorem foundHigh_uid0 (s : State) : (foundHigh s).uid0 = s.uid0 := rfl
@[simp] theorem foundHigh_uid1 (s : State) : (foundHigh s).uid1 = s.uid1 := rfl
@[simp] theorem foundHigh_swver (s : State) : (foundHigh s).swver = s.swver := rfl
@[simp] theorem foundHigh_batt (s : State) : (foundHigh s).batt = s.batt := rfl
@[simp] theorem foundHigh_temp (s : State) : (foundHigh s).temp = s.temp := rfl
@[simp] theorem foundHigh_uva (s : State) : (foundHigh s).uva = s.uva := rfl
@[simp] theorem foundHigh_uvb (s : State) : (foundHigh s).uvb = s.uvb := rfl
@[simp] theorem foundHigh_comp1 (s : State) : (foundHigh s).comp1 = s.comp1 := rfl
@[simp] theorem foundHigh_comp2 (s : State) : (foundHigh s).comp2 = s.comp2 := rfl
@[simp] theorem foundHigh_light (s : State) : (foundHigh s).light = s.light := rfl
@[simp] theorem foundHigh_diag (s : State) : (foundHigh s).diag = s.diag := rfl
@[simp] theorem foundHigh_frame (s : State) : (foundHigh s).frame = s.frame := rfl
@[simp] theorem foundHigh_phy (s : State) : (foundHigh s).phy = s.phy := rfl
@[simp] theorem foundHigh_ci (s : State) : (foundHigh s).ci = s.ci := rfl
@[simp] theorem foundHigh_ackstat (s : State) : (foundHigh s).ackstat = s.ackstat := rfl
@[simp] theorem foundHigh_rxbuf (s : State) : (foundHigh s).rxbuf = s.rxbuf := rfl
@[simp] theorem foundHigh_fs (s : State) : (foundHigh s).fs = s.fs := rfl
@[simp] theorem foundHigh_seq (s : State) : (foundHigh s).seq = s.seq := rfl
@[simp] theorem foundHigh_pins (s : State) : (foundHigh s).pins = s.pins := rfl
@[simp] theorem foundHigh_trace (s : State) : (foundHigh s).trace = s.trace := rfl
@[simp] theorem foundHigh_initd (s : State) : (foundHigh s).initd = s.initd := rfl
@[simp] theorem foundHigh_argLatch (s : State) : (foundHigh s).argLatch = s.argLatch := rfl
@[simp] theorem foundHigh_host (s : State) : (foundHigh s).host = s.host := rfl
@[simp] theorem foundHigh_rdata (s : State) : (foundHigh s).rdata = s.rdata := rfl
@[simp] theorem foundHigh_sched (s : State) : (foundHigh s).sched = s.sched := rfl
@[simp] theorem foundHigh_turns (s : State) : (foundHigh s).turns = s.turns := rfl
@[simp] theorem foundHigh_env (s : State) : (foundHigh s).env = s.env := rfl

/-! ### laddrEffect -/

@[simp] theorem laddrEffect_ctrl (hv : Bool) (s : State) : (laddrEffect hv s).ctrl = s.ctrl := rfl
@[simp] theorem laddrEffect_status (hv : Bool) (s : State) : (laddrEffect hv s).status = s.status := rfl
@[simp] theorem laddrEffect_arg (hv : Bool) (s : State) : (laddrEffect hv s).arg = s.arg := rfl
@[simp] theorem laddrEffect_cmd (hv : Bool) (s : State) : (laddrEffect hv s).cmd = s.cmd := rfl
@[simp] theorem laddrEffect_res (hv : Bool) (s : State) : (laddrEffect hv s).res = s.res := rfl
@[simp] theorem laddrEffect_clkHz (hv : Bool) (s : State) : (laddrEffect hv s).clkHz = s.clkHz := rfl
@[simp] theorem laddrEffect_laddr (hv : Bool) (s : State) : (laddrEffect hv s).laddr = if hv then Config.LIGHT_ADDR_HI else Config.LIGHT_ADDR_LO := rfl
@[simp] theorem laddrEffect_cnt (hv : Bool) (s : State) : (laddrEffect hv s).cnt = s.cnt := rfl
@[simp] theorem laddrEffect_nodeType (hv : Bool) (s : State) : (laddrEffect hv s).nodeType = s.nodeType := rfl
@[simp] theorem laddrEffect_uid0 (hv : Bool) (s : State) : (laddrEffect hv s).uid0 = s.uid0 := rfl
@[simp] theorem laddrEffect_uid1 (hv : Bool) (s : State) : (laddrEffect hv s).uid1 = s.uid1 := rfl
@[simp] theorem laddrEffect_swver (hv : Bool) (s : State) : (laddrEffect hv s).swver = s.swver := rfl
@[simp] theorem laddrEffect_batt (hv : Bool) (s : State) : (laddrEffect hv s).batt = s.batt := rfl
@[simp] theorem laddrEffect_temp (hv : Bool) (s : State) : (laddrEffect hv s).temp = s.temp := rfl
@[simp] theorem laddrEffect_uva (hv : Bool) (s : State) : (laddrEffect hv s).uva = s.uva := rfl
@[simp] theorem laddrEffect_uvb (hv : Bool) (s : State) : (laddrEffect hv s).uvb = s.uvb := rfl
@[simp] theorem laddrEffect_comp1 (hv : Bool) (s : State) : (laddrEffect hv s).comp1 = s.comp1 := rfl
@[simp] theorem laddrEffect_comp2 (hv : Bool) (s : State) : (laddrEffect hv s).comp2 = s.comp2 := rfl
@[simp] theorem laddrEffect_light (hv : Bool) (s : State) : (laddrEffect hv s).light = s.light := rfl
@[simp] theorem laddrEffect_diag (hv : Bool) (s : State) : (laddrEffect hv s).diag = s.diag := rfl
@[simp] theorem laddrEffect_frame (hv : Bool) (s : State) : (laddrEffect hv s).frame = s.frame := rfl
@[simp] theorem laddrEffect_phy (hv : Bool) (s : State) : (laddrEffect hv s).phy = s.phy := rfl
@[simp] theorem laddrEffect_ci (hv : Bool) (s : State) : (laddrEffect hv s).ci = s.ci := rfl
@[simp] theorem laddrEffect_ackstat (hv : Bool) (s : State) : (laddrEffect hv s).ackstat = s.ackstat := rfl
@[simp] theorem laddrEffect_rxbuf (hv : Bool) (s : State) : (laddrEffect hv s).rxbuf = s.rxbuf := rfl
@[simp] theorem laddrEffect_fs (hv : Bool) (s : State) : (laddrEffect hv s).fs = s.fs := rfl
@[simp] theorem laddrEffect_seq (hv : Bool) (s : State) : (laddrEffect hv s).seq = s.seq := rfl
@[simp] theorem laddrEffect_pins (hv : Bool) (s : State) : (laddrEffect hv s).pins = s.pins := rfl
@[simp] theorem laddrEffect_trace (hv : Bool) (s : State) : (laddrEffect hv s).trace = s.trace := rfl
@[simp] theorem laddrEffect_initd (hv : Bool) (s : State) : (laddrEffect hv s).initd = s.initd := rfl
@[simp] theorem laddrEffect_argLatch (hv : Bool) (s : State) : (laddrEffect hv s).argLatch = s.argLatch := rfl
@[simp] theorem laddrEffect_host (hv : Bool) (s : State) : (laddrEffect hv s).host = s.host := rfl
@[simp] theorem laddrEffect_rdata (hv : Bool) (s : State) : (laddrEffect hv s).rdata = s.rdata := rfl
@[simp] theorem laddrEffect_sched (hv : Bool) (s : State) : (laddrEffect hv s).sched = s.sched := rfl
@[simp] theorem laddrEffect_turns (hv : Bool) (s : State) : (laddrEffect hv s).turns = s.turns := rfl
@[simp] theorem laddrEffect_env (hv : Bool) (s : State) : (laddrEffect hv s).env = s.env := rfl

/-! ### lightEffect -/

@[simp] theorem lightEffect_ctrl (r : Run) (s : State) : (lightEffect r s).ctrl = s.ctrl := rfl
@[simp] theorem lightEffect_status (r : Run) (s : State) : (lightEffect r s).status = s.status := rfl
@[simp] theorem lightEffect_arg (r : Run) (s : State) : (lightEffect r s).arg = s.arg := rfl
@[simp] theorem lightEffect_cmd (r : Run) (s : State) : (lightEffect r s).cmd = s.cmd := rfl
@[simp] theorem lightEffect_res (r : Run) (s : State) : (lightEffect r s).res = (lightValue r.t0 r.t1).setWidth 32 := rfl
@[simp] theorem lightEffect_clkHz (r : Run) (s : State) : (lightEffect r s).clkHz = s.clkHz := rfl
@[simp] theorem lightEffect_laddr (r : Run) (s : State) : (lightEffect r s).laddr = s.laddr := rfl
@[simp] theorem lightEffect_cnt (r : Run) (s : State) : (lightEffect r s).cnt = s.cnt := rfl
@[simp] theorem lightEffect_nodeType (r : Run) (s : State) : (lightEffect r s).nodeType = s.nodeType := rfl
@[simp] theorem lightEffect_uid0 (r : Run) (s : State) : (lightEffect r s).uid0 = s.uid0 := rfl
@[simp] theorem lightEffect_uid1 (r : Run) (s : State) : (lightEffect r s).uid1 = s.uid1 := rfl
@[simp] theorem lightEffect_swver (r : Run) (s : State) : (lightEffect r s).swver = s.swver := rfl
@[simp] theorem lightEffect_batt (r : Run) (s : State) : (lightEffect r s).batt = s.batt := rfl
@[simp] theorem lightEffect_temp (r : Run) (s : State) : (lightEffect r s).temp = s.temp := rfl
@[simp] theorem lightEffect_uva (r : Run) (s : State) : (lightEffect r s).uva = s.uva := rfl
@[simp] theorem lightEffect_uvb (r : Run) (s : State) : (lightEffect r s).uvb = s.uvb := rfl
@[simp] theorem lightEffect_comp1 (r : Run) (s : State) : (lightEffect r s).comp1 = s.comp1 := rfl
@[simp] theorem lightEffect_comp2 (r : Run) (s : State) : (lightEffect r s).comp2 = s.comp2 := rfl
@[simp] theorem lightEffect_light (r : Run) (s : State) : (lightEffect r s).light = lightValue r.t0 r.t1 := rfl
@[simp] theorem lightEffect_diag (r : Run) (s : State) : (lightEffect r s).diag = s.diag := rfl
@[simp] theorem lightEffect_frame (r : Run) (s : State) : (lightEffect r s).frame = s.frame := rfl
@[simp] theorem lightEffect_phy (r : Run) (s : State) : (lightEffect r s).phy = s.phy := rfl
@[simp] theorem lightEffect_ci (r : Run) (s : State) : (lightEffect r s).ci = s.ci := rfl
@[simp] theorem lightEffect_ackstat (r : Run) (s : State) : (lightEffect r s).ackstat = s.ackstat := rfl
@[simp] theorem lightEffect_rxbuf (r : Run) (s : State) : (lightEffect r s).rxbuf = s.rxbuf := rfl
@[simp] theorem lightEffect_fs (r : Run) (s : State) : (lightEffect r s).fs = s.fs := rfl
@[simp] theorem lightEffect_seq (r : Run) (s : State) : (lightEffect r s).seq = s.seq := rfl
@[simp] theorem lightEffect_pins (r : Run) (s : State) : (lightEffect r s).pins = s.pins := rfl
@[simp] theorem lightEffect_trace (r : Run) (s : State) : (lightEffect r s).trace = s.trace := rfl
@[simp] theorem lightEffect_initd (r : Run) (s : State) : (lightEffect r s).initd = s.initd := rfl
@[simp] theorem lightEffect_argLatch (r : Run) (s : State) : (lightEffect r s).argLatch = s.argLatch := rfl
@[simp] theorem lightEffect_host (r : Run) (s : State) : (lightEffect r s).host = s.host := rfl
@[simp] theorem lightEffect_rdata (r : Run) (s : State) : (lightEffect r s).rdata = s.rdata := rfl
@[simp] theorem lightEffect_sched (r : Run) (s : State) : (lightEffect r s).sched = s.sched := rfl
@[simp] theorem lightEffect_turns (r : Run) (s : State) : (lightEffect r s).turns = s.turns := rfl
@[simp] theorem lightEffect_env (r : Run) (s : State) : (lightEffect r s).env = s.env := rfl

/-! ### frameEffect -/

@[simp] theorem frameEffect_ctrl (s : State) : (frameEffect s).ctrl = s.ctrl := rfl
@[simp] theorem frameEffect_status (s : State) : (frameEffect s).status = { s.status with frameValid := true } := rfl
@[simp] theorem frameEffect_arg (s : State) : (frameEffect s).arg = s.arg := rfl
@[simp] theorem frameEffect_cmd (s : State) : (frameEffect s).cmd = s.cmd := rfl
@[simp] theorem frameEffect_res (s : State) : (frameEffect s).res = s.res := rfl
@[simp] theorem frameEffect_clkHz (s : State) : (frameEffect s).clkHz = s.clkHz := rfl
@[simp] theorem frameEffect_laddr (s : State) : (frameEffect s).laddr = s.laddr := rfl
@[simp] theorem frameEffect_cnt (s : State) : (frameEffect s).cnt = s.cnt := rfl
@[simp] theorem frameEffect_nodeType (s : State) : (frameEffect s).nodeType = s.nodeType := rfl
@[simp] theorem frameEffect_uid0 (s : State) : (frameEffect s).uid0 = s.uid0 := rfl
@[simp] theorem frameEffect_uid1 (s : State) : (frameEffect s).uid1 = s.uid1 := rfl
@[simp] theorem frameEffect_swver (s : State) : (frameEffect s).swver = s.swver := rfl
@[simp] theorem frameEffect_batt (s : State) : (frameEffect s).batt = s.batt := rfl
@[simp] theorem frameEffect_temp (s : State) : (frameEffect s).temp = s.temp := rfl
@[simp] theorem frameEffect_uva (s : State) : (frameEffect s).uva = s.uva := rfl
@[simp] theorem frameEffect_uvb (s : State) : (frameEffect s).uvb = s.uvb := rfl
@[simp] theorem frameEffect_comp1 (s : State) : (frameEffect s).comp1 = s.comp1 := rfl
@[simp] theorem frameEffect_comp2 (s : State) : (frameEffect s).comp2 = s.comp2 := rfl
@[simp] theorem frameEffect_light (s : State) : (frameEffect s).light = s.light := rfl
@[simp] theorem frameEffect_diag (s : State) : (frameEffect s).diag = s.diag := rfl
@[simp] theorem frameEffect_frame (s : State) : (frameEffect s).frame = s.frame.writeBytes FRAME_BASE (frameBytes s) := by
  simp only [frameEffect]
@[simp] theorem frameEffect_phy (s : State) : (frameEffect s).phy = s.phy := rfl
@[simp] theorem frameEffect_ci (s : State) : (frameEffect s).ci = s.ci := rfl
@[simp] theorem frameEffect_ackstat (s : State) : (frameEffect s).ackstat = s.ackstat := rfl
@[simp] theorem frameEffect_rxbuf (s : State) : (frameEffect s).rxbuf = s.rxbuf := rfl
@[simp] theorem frameEffect_fs (s : State) : (frameEffect s).fs = s.fs := rfl
@[simp] theorem frameEffect_seq (s : State) : (frameEffect s).seq = s.seq := rfl
@[simp] theorem frameEffect_pins (s : State) : (frameEffect s).pins = s.pins := rfl
@[simp] theorem frameEffect_trace (s : State) : (frameEffect s).trace = s.trace := rfl
@[simp] theorem frameEffect_initd (s : State) : (frameEffect s).initd = s.initd := rfl
@[simp] theorem frameEffect_argLatch (s : State) : (frameEffect s).argLatch = s.argLatch := rfl
@[simp] theorem frameEffect_host (s : State) : (frameEffect s).host = s.host := rfl
@[simp] theorem frameEffect_rdata (s : State) : (frameEffect s).rdata = s.rdata := rfl
@[simp] theorem frameEffect_sched (s : State) : (frameEffect s).sched = s.sched := rfl
@[simp] theorem frameEffect_turns (s : State) : (frameEffect s).turns = s.turns := rfl
@[simp] theorem frameEffect_env (s : State) : (frameEffect s).env = s.env := rfl

/-! ### cntIncEffect -/

@[simp] theorem cntIncEffect_ctrl (s : State) : (cntIncEffect s).ctrl = s.ctrl := rfl
@[simp] theorem cntIncEffect_status (s : State) : (cntIncEffect s).status = s.status := rfl
@[simp] theorem cntIncEffect_arg (s : State) : (cntIncEffect s).arg = s.arg := rfl
@[simp] theorem cntIncEffect_cmd (s : State) : (cntIncEffect s).cmd = s.cmd := rfl
@[simp] theorem cntIncEffect_res (s : State) : (cntIncEffect s).res = s.res := rfl
@[simp] theorem cntIncEffect_clkHz (s : State) : (cntIncEffect s).clkHz = s.clkHz := rfl
@[simp] theorem cntIncEffect_laddr (s : State) : (cntIncEffect s).laddr = s.laddr := rfl
@[simp] theorem cntIncEffect_cnt (s : State) : (cntIncEffect s).cnt = s.cnt + 1 := rfl
@[simp] theorem cntIncEffect_nodeType (s : State) : (cntIncEffect s).nodeType = s.nodeType := rfl
@[simp] theorem cntIncEffect_uid0 (s : State) : (cntIncEffect s).uid0 = s.uid0 := rfl
@[simp] theorem cntIncEffect_uid1 (s : State) : (cntIncEffect s).uid1 = s.uid1 := rfl
@[simp] theorem cntIncEffect_swver (s : State) : (cntIncEffect s).swver = s.swver := rfl
@[simp] theorem cntIncEffect_batt (s : State) : (cntIncEffect s).batt = s.batt := rfl
@[simp] theorem cntIncEffect_temp (s : State) : (cntIncEffect s).temp = s.temp := rfl
@[simp] theorem cntIncEffect_uva (s : State) : (cntIncEffect s).uva = s.uva := rfl
@[simp] theorem cntIncEffect_uvb (s : State) : (cntIncEffect s).uvb = s.uvb := rfl
@[simp] theorem cntIncEffect_comp1 (s : State) : (cntIncEffect s).comp1 = s.comp1 := rfl
@[simp] theorem cntIncEffect_comp2 (s : State) : (cntIncEffect s).comp2 = s.comp2 := rfl
@[simp] theorem cntIncEffect_light (s : State) : (cntIncEffect s).light = s.light := rfl
@[simp] theorem cntIncEffect_diag (s : State) : (cntIncEffect s).diag = s.diag := rfl
@[simp] theorem cntIncEffect_frame (s : State) : (cntIncEffect s).frame = s.frame := rfl
@[simp] theorem cntIncEffect_phy (s : State) : (cntIncEffect s).phy = s.phy := rfl
@[simp] theorem cntIncEffect_ci (s : State) : (cntIncEffect s).ci = s.ci := rfl
@[simp] theorem cntIncEffect_ackstat (s : State) : (cntIncEffect s).ackstat = s.ackstat := rfl
@[simp] theorem cntIncEffect_rxbuf (s : State) : (cntIncEffect s).rxbuf = s.rxbuf := rfl
@[simp] theorem cntIncEffect_fs (s : State) : (cntIncEffect s).fs = s.fs := rfl
@[simp] theorem cntIncEffect_seq (s : State) : (cntIncEffect s).seq = s.seq := rfl
@[simp] theorem cntIncEffect_pins (s : State) : (cntIncEffect s).pins = s.pins := rfl
@[simp] theorem cntIncEffect_trace (s : State) : (cntIncEffect s).trace = s.trace := rfl
@[simp] theorem cntIncEffect_initd (s : State) : (cntIncEffect s).initd = s.initd := rfl
@[simp] theorem cntIncEffect_argLatch (s : State) : (cntIncEffect s).argLatch = s.argLatch := rfl
@[simp] theorem cntIncEffect_host (s : State) : (cntIncEffect s).host = s.host := rfl
@[simp] theorem cntIncEffect_rdata (s : State) : (cntIncEffect s).rdata = s.rdata := rfl
@[simp] theorem cntIncEffect_sched (s : State) : (cntIncEffect s).sched = s.sched := rfl
@[simp] theorem cntIncEffect_turns (s : State) : (cntIncEffect s).turns = s.turns := rfl
@[simp] theorem cntIncEffect_env (s : State) : (cntIncEffect s).env = s.env := rfl

/-! ### powerOn -/

@[simp] theorem powerOn_ctrl (s : State) : (powerOn s).ctrl = State.reset.ctrl := rfl
@[simp] theorem powerOn_status (s : State) : (powerOn s).status = State.reset.status := rfl
@[simp] theorem powerOn_arg (s : State) : (powerOn s).arg = State.reset.arg := rfl
@[simp] theorem powerOn_cmd (s : State) : (powerOn s).cmd = State.reset.cmd := rfl
@[simp] theorem powerOn_res (s : State) : (powerOn s).res = State.reset.res := rfl
@[simp] theorem powerOn_clkHz (s : State) : (powerOn s).clkHz = State.reset.clkHz := rfl
@[simp] theorem powerOn_laddr (s : State) : (powerOn s).laddr = State.reset.laddr := rfl
@[simp] theorem powerOn_cnt (s : State) : (powerOn s).cnt = State.reset.cnt := rfl
@[simp] theorem powerOn_nodeType (s : State) : (powerOn s).nodeType = State.reset.nodeType := rfl
@[simp] theorem powerOn_uid0 (s : State) : (powerOn s).uid0 = State.reset.uid0 := rfl
@[simp] theorem powerOn_uid1 (s : State) : (powerOn s).uid1 = State.reset.uid1 := rfl
@[simp] theorem powerOn_swver (s : State) : (powerOn s).swver = State.reset.swver := rfl
@[simp] theorem powerOn_batt (s : State) : (powerOn s).batt = State.reset.batt := rfl
@[simp] theorem powerOn_temp (s : State) : (powerOn s).temp = State.reset.temp := rfl
@[simp] theorem powerOn_uva (s : State) : (powerOn s).uva = State.reset.uva := rfl
@[simp] theorem powerOn_uvb (s : State) : (powerOn s).uvb = State.reset.uvb := rfl
@[simp] theorem powerOn_comp1 (s : State) : (powerOn s).comp1 = State.reset.comp1 := rfl
@[simp] theorem powerOn_comp2 (s : State) : (powerOn s).comp2 = State.reset.comp2 := rfl
@[simp] theorem powerOn_light (s : State) : (powerOn s).light = State.reset.light := rfl
@[simp] theorem powerOn_diag (s : State) : (powerOn s).diag = State.reset.diag := rfl
@[simp] theorem powerOn_frame (s : State) : (powerOn s).frame = State.reset.frame := rfl
@[simp] theorem powerOn_phy (s : State) : (powerOn s).phy = State.reset.phy := rfl
@[simp] theorem powerOn_ci (s : State) : (powerOn s).ci = State.reset.ci := rfl
@[simp] theorem powerOn_ackstat (s : State) : (powerOn s).ackstat = State.reset.ackstat := rfl
@[simp] theorem powerOn_rxbuf (s : State) : (powerOn s).rxbuf = State.reset.rxbuf := rfl
@[simp] theorem powerOn_fs (s : State) : (powerOn s).fs = State.reset.fs := rfl
@[simp] theorem powerOn_seq (s : State) : (powerOn s).seq = State.reset.seq := rfl
@[simp] theorem powerOn_pins (s : State) : (powerOn s).pins = State.reset.pins := rfl
@[simp] theorem powerOn_trace (s : State) : (powerOn s).trace = State.reset.trace := rfl
@[simp] theorem powerOn_initd (s : State) : (powerOn s).initd = State.reset.initd := rfl
@[simp] theorem powerOn_argLatch (s : State) : (powerOn s).argLatch = State.reset.argLatch := rfl
@[simp] theorem powerOn_host (s : State) : (powerOn s).host = s.host := rfl
@[simp] theorem powerOn_rdata (s : State) : (powerOn s).rdata = s.rdata := rfl
@[simp] theorem powerOn_sched (s : State) : (powerOn s).sched = s.sched := rfl
@[simp] theorem powerOn_turns (s : State) : (powerOn s).turns = s.turns := rfl
@[simp] theorem powerOn_env (s : State) : (powerOn s).env = s.env := rfl

end Sys2Proof.Machine
end

