-- ==== Sys2Proof/Laws/Ops.lean ====
section
/-! SUPPORT. One lemma per shared operation that says once everything it can do; later proofs cite these instead of
unfolding the operations. -/

namespace Sys2Proof.Machine

/-! ### Small values -/

@[simp] theorem isOpen_idle : Framing.idle.isOpen = false := rfl
@[simp] theorem isOpen_opened : Framing.opened.isOpen = true := rfl
@[simp] theorem inFlight_none : PhyOp.inFlight none = false := rfl
@[simp] theorem inFlight_some (o : PhyOp) : PhyOp.inFlight (some o) = true := rfl

theorem isOpen_eq_true {fs : Framing} : fs.isOpen = true ↔ fs = .opened := by cases fs <;> simp
theorem isOpen_eq_false {fs : Framing} : fs.isOpen = false ↔ fs = .idle := by cases fs <;> simp
theorem inFlight_eq_false {p : Option PhyOp} : PhyOp.inFlight p = false ↔ p = none := by cases p <;> simp
theorem inFlight_eq_true {p : Option PhyOp} : PhyOp.inFlight p = true ↔ p ≠ none := by cases p <;> simp

theorem busy_of_idle {s : State} (h : s.seq = .idle) : s.busy = false := by simp [State.busy, h]
theorem busy_of_run {s : State} {r : Run} (h : s.seq = .run r) : s.busy = true := by simp [State.busy, h]

/-- BUSY = 0 exactly when S.seq is idle. -/
theorem busy_eq_false {s : State} : s.busy = false ↔ s.seq = .idle := by
  unfold State.busy; split <;> simp_all

/-- BUSY = 1 exactly when S.seq is run. -/
theorem busy_eq_true {s : State} : s.busy = true ↔ ∃ r, s.seq = .run r := by
  unfold State.busy; split <;> simp_all

/-! ### Draws: only ENV's answers move -/

/-- A draw of an acknowledge bit takes the first listed answer, or the next free value. -/
theorem takeAck_cons {e : Env} {a : Bool} {l : List Bool} (h : e.acks = a :: l) :
    e.takeAck = (a, { e with acks := l }) := by simp [Env.takeAck, h]

/-- A draw of a byte. -/
theorem takeByte_cons {e : Env} {b : Byte} {l : List Byte} (h : e.bytes = b :: l) :
    e.takeByte = (b, { e with bytes := l }) := by simp [Env.takeByte, h]

/-- A draw of a data-line sample. -/
theorem takeSda_cons {e : Env} {v : Bool} {l : List Bool} (h : e.sdas = v :: l) :
    e.takeSda = (v, { e with sdas := l }) := by simp [Env.takeSda, h]

/-- A poll draws nothing, unless the PHY is poisoned; then only ENV's answers move. -/
theorem pollIdle_state (s : State) : (pollIdle s).2 = s ∨ (pollIdle s).2 = { s with env := s.env.takePoll.2 } := by
  unfold pollIdle; split
  · exact .inr rfl
  · exact .inl rfl

theorem pollCi_state (s : State) : (pollCi s).2 = s ∨ (pollCi s).2 = { s with env := s.env.takePoll.2 } := by
  unfold pollCi; split
  · exact .inr rfl
  · exact .inl rfl

theorem obsAck_state (s : State) : (obsAck s).2 = s ∨ (obsAck s).2 = { s with env := s.env.takeAck.2 } := by
  unfold obsAck; split
  · exact .inr rfl
  · exact .inl rfl

theorem obsRx_state (s : State) : (obsRx s).2 = s ∨ (obsRx s).2 = { s with env := s.env.takeByte.2 } := by
  unfold obsRx; split
  · exact .inr rfl
  · exact .inl rfl

theorem obsAck_clean {s : State} (h : s.phy.poisoned = false) : obsAck s = (s.ackstat, s) := by simp [obsAck, h]
theorem obsRx_clean {s : State} (h : s.phy.poisoned = false) : obsRx s = (s.rxbuf, s) := by simp [obsRx, h]

theorem pollIdle_clean {s : State} (h : s.phy.poisoned = false) :
    pollIdle s = (!PhyOp.inFlight s.phy.pending, s) := by simp [pollIdle, h]

theorem pollCi_clean {s : State} (h : s.phy.poisoned = false) : pollCi s = (s.ci, s) := by simp [pollCi, h]

/-! ### Errors -/

/-- A CmdError writes STATUS and nothing else. -/
theorem raiseCmdError_eq (c : ErrCode) (s : State) :
    raiseCmdError c s = { s with status := (raiseCmdError c s).status } := by
  unfold raiseCmdError; split <;> rfl

/-- The first error is recorded; a later one only sets ERR_OVF. -/
theorem raiseCmdError_cases (c : ErrCode) (s : State) :
    (s.status.err = false ∧ raiseCmdError c s = { s with status := { s.status with err := true, errcode := c } }) ∨
    (s.status.err = true ∧ raiseCmdError c s = { s with status := { s.status with errOvf := true } }) := by
  unfold raiseCmdError
  cases h : s.status.err <;> simp

/-- Clearing STATUS bits writes STATUS and nothing else. -/
theorem clearStatus_eq (v : Word) (s : State) : clearStatus v s = { s with status := (clearStatus v s).status } := rfl

/-! ### The PHY -/

/-- Handing a transfer to the PHY: only logged while poisoned, a collision while one is in flight, else in flight. -/
theorem phyIssue_cases (o : PhyOp) (s : State) :
    (s.phy.poisoned = true ∧ phyIssue o s = logFlagged (.issue o) (!s.fs.isOpen) false s) ∨
    (s.phy.poisoned = false ∧ s.phy.pending ≠ none ∧ phyIssue o s = collide (.op o) s) ∨
    (s.phy = ⟨none, false⟩ ∧
      phyIssue o s = { logFlagged (.issue o) (!s.fs.isOpen) false s with phy := ⟨some o, false⟩ }) := by
  rcases hphy : s.phy with ⟨p, q⟩
  cases q <;> cases p <;> simp [phyIssue, hphy]

/-- A condition on the bus: logged, or a collision while a transfer is in flight. -/
theorem emitCond_cases (c : Cond) (s : State) :
    ((s.phy.poisoned = true ∨ s.phy.pending = none) ∧
      emitCond c s = logFlagged (.cond c) (c.unframed s.fs) (c.reopen s.fs) s) ∨
    (s.phy.poisoned = false ∧ s.phy.pending ≠ none ∧ emitCond c s = collide (.cond c) s) := by
  rcases hphy : s.phy with ⟨p, q⟩
  cases q <;> cases p <;> simp [emitCond, hphy]

/-- Taking SCL: a transfer in flight collides, and SCL is a GPIO in every case. -/
theorem takeScl_cases (s : State) :
    ((s.phy.poisoned = true ∨ s.phy.pending = none) ∧
      takeScl s = log (.sclctl .gpio) { s with pins.sclOwner := .gpio }) ∨
    (s.phy.poisoned = false ∧ s.phy.pending ≠ none ∧
      takeScl s = log (.sclctl .gpio) { collide .recover s with pins.sclOwner := .gpio }) := by
  rcases hphy : s.phy with ⟨p, q⟩
  cases q <;> cases p <;> simp [takeScl, hphy, collide, log, logFlagged]

/-- A completed transfer. -/
theorem phyStep_cases (s : State) :
    ((s.phy.poisoned = true ∨ s.phy.pending = none) ∧ phyStep s = s) ∨
    (∃ b, s.phy = ⟨some (.tx b), false⟩ ∧
      phyStep s = { s with
        phy := ⟨none, false⟩, ackstat := s.env.takeAck.1, ci := true, env := s.env.takeAck.2,
        trace := s.trace ++ [⟨.txdone s.env.takeAck.1, ⟨false, false, false⟩⟩] }) ∨
    (s.phy = ⟨some .rx, false⟩ ∧
      phyStep s = { s with
        phy := ⟨none, false⟩, rxbuf := s.env.takeByte.1, env := s.env.takeByte.2,
        trace := s.trace ++ [⟨.rxdone s.env.takeByte.1, ⟨false, false, false⟩⟩] }) ∨
    (∃ a, s.phy = ⟨some (.ackdrv a), false⟩ ∧
      phyStep s = { s with
        phy := ⟨none, false⟩, trace := s.trace ++ [⟨.ackdone, ⟨false, false, false⟩⟩] }) := by
  rcases hphy : s.phy with ⟨p, q⟩
  cases q with
  | true => simp [phyStep, hphy]
  | false =>
    rcases p with - | (b | - | a)
    · simp [phyStep, hphy]
    · simp [phyStep, hphy, log, logFlagged]
    · simp [phyStep, hphy, log, logFlagged]
    · simp [phyStep, hphy, log, logFlagged]

/-! ### The sequencer -/

/-- Advancing moves S.seq and nothing else: to micro-op n of the same program, or to idle past its end. -/
theorem advanceTo_cases (n : Nat) (r : Run) (s : State) :
    (n < r.prog.length ∧ advanceTo n r s = { s with seq := .run { r with step := n, iter := 0 } }) ∨
    (¬ n < r.prog.length ∧ advanceTo n r s = { s with seq := .idle }) := by
  unfold advanceTo; split
  · exact .inl ⟨‹_›, rfl⟩
  · exact .inr ⟨‹_›, rfl⟩

theorem advanceTo_lt {n : Nat} {r : Run} {s : State} (h : n < r.prog.length) :
    advanceTo n r s = { s with seq := .run { r with step := n, iter := 0 } } := by simp [advanceTo, h]

theorem advanceTo_end {n : Nat} {r : Run} {s : State} (h : r.prog.length ≤ n) :
    advanceTo n r s = { s with seq := .idle } := by simp [advanceTo, Nat.not_lt.mpr h]

/-- Advancing forgets the S.seq it found. -/
theorem advanceTo_seq (n : Nat) (r : Run) (s : State) (q : Sequencer) :
    advanceTo n r { s with seq := q } = advanceTo n r s := by unfold advanceTo; split <;> rfl

/-- Advancing changes S.seq alone. -/
theorem advanceTo_eq (n : Nat) (r : Run) (s : State) :
    advanceTo n r s = { s with seq := (advanceTo n r s).seq } := by
  rcases advanceTo_cases n r s with ⟨_, h⟩ | ⟨_, h⟩ <;> rw [h]

/-- One poll of a bounded wait: seen, poll again, exhausted. -/
theorem waitPoll_cases (ok : Bool) (r : Run) (s : State) :
    (ok = true ∧ waitPoll ok r s = advanceTo (r.step + 1) r s) ∨
    (ok = false ∧ r.iter + 1 < Config.RETRY_MAX ∧
      waitPoll ok r s = { s with seq := .run { r with iter := r.iter + 1 } }) ∨
    (ok = false ∧ ¬ r.iter + 1 < Config.RETRY_MAX ∧
      waitPoll ok r s = advanceTo (r.step + 1) r (recordTimeout s)) := by
  unfold waitPoll advance
  cases ok
  · by_cases h : r.iter + 1 < Config.RETRY_MAX <;> simp [h]
  · simp

/-- A launched program: nothing for the empty one, else S.seq at its first micro-op. -/
theorem launch_cases (op : Instr) (prog : List MuOp) (s : State) :
    (prog = [] ∧ launch op prog s = s) ∨
    (prog ≠ [] ∧ launch op prog s = { s with seq := .run (Run.fresh op prog) }) := by
  cases prog <;> simp [launch]

/-- The SEQ step of an idle sequencer changes nothing. -/
theorem seqStep_idle {s : State} (h : s.seq = .idle) : seqStep s = s := by simp [seqStep, h]

/-- The SEQ step of a running command is its current micro-op. -/
theorem seqStep_run {s : State} {r : Run} {u : MuOp} (h : s.seq = .run r) (hu : r.prog[r.step]? = some u) :
    seqStep s = u.run r s := by simp [seqStep, h, hu]

/-! ### Launching -/

/-- Everything the launch of a command can do: run its program, or record NOT_INIT or BAD_ARG. -/
theorem exec_eq (i : Instr) (s : State) :
    exec i s = .next
      (if i = .init ∧ s.argLatch = 0 then raiseCmdError .badArg s
      else if needsInit i = true ∧ s.initd = false then raiseCmdError .notInit s
      else launch i (program i) s) := by
  cases i <;>
    simp [exec, execNop, execInit, execDeinit, execStart, execRstart, execStop, execWrite, execRead, execRecover,
      execLSetAddr, execLSetMode, execLSetMt, execLRead, execUvWrCfg, execUvRdReg, execUvStart, execUvRead, execFrBuild,
      execCntInc, launchBus, needsInit, program, argWord] <;>
    split <;> simp_all

/-- The programs of the nineteen commands: only NOP's is empty. -/
theorem program_ne_nil {i : Instr} (h : i ≠ .nop) : program i ≠ [] := by
  cases i <;> first | exact absurd rfl h | exact List.cons_ne_nil _ _

/-! ### Turns -/

/-- Every access of the host answers a next state. -/
theorem hostWrite_next (off : Byte) (width : Width) (v : Word) (s : State) :
    ∃ s', hostWrite off width v s = .next s' := by
  unfold hostWrite
  split
  · exact ⟨_, rfl⟩
  · cases width
    · exact ⟨_, rfl⟩
    · exact ⟨_, rfl⟩
    · dsimp only
      split
      · split
        · exact ⟨_, rfl⟩
        · unfold writeCmd
          split
          · exact ⟨_, rfl⟩
          · exact ⟨_, exec_eq _ _⟩
        · exact ⟨_, rfl⟩
      · exact ⟨_, rfl⟩

/-- Every turn of every agent answers a next state. -/
theorem agentStep_next (t : Turn) (s : State) : ∃ s', agentStep t s = .next s' := by
  cases t
  · unfold agentStep hostStep
    dsimp only
    split
    · exact ⟨_, rfl⟩
    · exact hostWrite_next _ _ _ _
    · exact ⟨_, rfl⟩
    · exact ⟨_, rfl⟩
    · exact ⟨_, rfl⟩
  · exact ⟨_, rfl⟩
  · exact ⟨_, rfl⟩
  · exact ⟨_, rfl⟩

@[simp] theorem agentStep_seq (s : State) : agentStep .seq s = .next (seqStep s) := rfl
@[simp] theorem agentStep_phy (s : State) : agentStep .phy s = .next (phyStep s) := rfl
@[simp] theorem agentStep_reset (s : State) : agentStep .reset s = .next (powerOn s) := rfl
@[simp] theorem agentStep_host (s : State) : agentStep .host s = hostStep s := rfl

/-- Everything a HOST turn can do: nothing of the block (a read, a poll of WAITDONE, a delay, no access), a write dropped
while busy, a bad access, a register write, a rejected command word, a launch. -/
theorem hostStep_cases {s s' : State} (h : hostStep s = .next s') :
    (∃ l d, s' = { s with host := l, rdata := d }) ∨
    (∃ l, s.busy = true ∧ s' = { s with host := l, status := { s.status with wwb := true } }) ∨
    (∃ l, s.seq = .idle ∧ s' = raiseCmdError .badAccess { s with host := l }) ∨
    (∃ l r v, s.seq = .idle ∧ r ≠ .cmd ∧ s' = writeReg r v { s with host := l }) ∨
    (∃ l w c, s.seq = .idle ∧ decodeWord w = .error c ∧ s' = raiseCmdError c (latchCommand w { s with host := l })) ∨
    (∃ l w i, s.seq = .idle ∧ decodeWord w = .ok i ∧ exec i (latchCommand w { s with host := l }) = .next s') := by
  unfold hostStep at h
  split at h
  · obtain rfl := Host.Outcome.next.inj h
    exact .inl ⟨s.host, s.rdata, rfl⟩
  · rename_i off width v rest _
    unfold hostWrite at h
    split at h
    · exact .inr (.inl ⟨rest, ‹_›, (Host.Outcome.next.inj h).symm⟩)
    · rename_i hb
      have hi : s.seq = .idle := busy_eq_false.mp (by simpa [State.busy] using hb)
      cases width
      · exact .inr (.inr (.inl ⟨rest, hi, (Host.Outcome.next.inj h).symm⟩))
      · exact .inr (.inr (.inl ⟨rest, hi, (Host.Outcome.next.inj h).symm⟩))
      · dsimp only at h
        split at h
        · split at h
          · obtain rfl := Host.Outcome.next.inj h
            exact .inl ⟨rest, s.rdata, rfl⟩
          · unfold writeCmd at h
            split at h
            · exact .inr (.inr (.inr (.inr (.inl ⟨rest, v, _, hi, ‹_›, (Host.Outcome.next.inj h).symm⟩))))
            · exact .inr (.inr (.inr (.inr (.inr ⟨rest, v, _, hi, ‹_›, h⟩))))
          · rename_i r hr _
            exact .inr (.inr (.inr (.inl ⟨rest, r, v, hi, hr, (Host.Outcome.next.inj h).symm⟩)))
        · exact .inr (.inr (.inl ⟨rest, hi, (Host.Outcome.next.inj h).symm⟩))
  · obtain rfl := Host.Outcome.next.inj h
    exact .inl ⟨_, _, rfl⟩
  · obtain rfl := Host.Outcome.next.inj h
    unfold hostPoll
    dsimp only
    split
    · exact .inl ⟨s.host, _, rfl⟩
    · exact .inl ⟨_, _, rfl⟩
  · obtain rfl := Host.Outcome.next.inj h
    exact .inl ⟨_, s.rdata, rfl⟩

/-- A step is the turn it takes, at a state that differs in the schedule alone. -/
theorem step_eq (s : State) :
    step s = agentStep (whoseTurn s) { s with sched := (turnTaken s).sched, turns := (turnTaken s).turns } := by
  unfold step turnTaken
  split <;> rfl

end Sys2Proof.Machine
end

