-- ==== Sys2Proof/Laws/Eager.lean ====
section
/-! SUPPORT. Runs of turns, and what each transport macro does under the eager schedule, once per macro. A proof about a
command chains these along its program. -/

namespace Sys2Proof.Machine

@[simp] theorem runTurns_nil (s : State) : runTurns [] s = .next s := rfl
@[simp] theorem runTurns_seq (ts : List Turn) (s : State) : runTurns (.seq :: ts) s = runTurns ts (seqStep s) := rfl
@[simp] theorem runTurns_phy (ts : List Turn) (s : State) : runTurns (.phy :: ts) s = runTurns ts (phyStep s) := rfl

/-- A run of turns is the run of its first part, then of its rest. -/
theorem runTurns_append {ts us : List Turn} {s t : State} (h : runTurns ts s = .next t) :
    runTurns (ts ++ us) s = runTurns us t := by
  induction ts generalizing s with
  | nil => obtain rfl := Host.Outcome.next.inj h; rfl
  | cons x ts ih =>
    obtain ⟨s', hs'⟩ := agentStep_next x s
    simp only [List.cons_append, runTurns, hs'] at h ⊢
    exact ih h

theorem eager_add (m n : Nat) : eager (m + n) = eager m ++ eager n := by
  induction m with
  | zero => simp [eager]
  | succ m ih => rw [Nat.succ_add]; simp [eager, ih]

theorem stalled_add (m n : Nat) : stalled (m + n) = stalled m ++ stalled n := by
  exact List.replicate_add _ _ _

/-- Running on from a known point of the eager schedule. -/
theorem eager_then {m n : Nat} {s t : State} (h : runTurns (eager m) s = .next t) :
    runTurns (eager (m + n)) s = runTurns (eager n) t := by rw [eager_add]; exact runTurns_append h

/-- A PHY turn with nothing in flight changes nothing. -/
theorem phyStep_none {s : State} (h : s.phy = ⟨none, false⟩) : phyStep s = s := by
  simp [phyStep, h]

/-- An idle sequencer and an idle PHY stay as they are. -/
theorem eager_quiet {s : State} (h : s.quiet) (n : Nat) : runTurns (eager n) s = .next s := by
  induction n with
  | zero => rfl
  | succ n ih => simp only [eager, runTurns_seq, runTurns_phy, seqStep_idle h.1, phyStep_none h.2, ih]

/-- `b` with the sequencer at `r`. -/
abbrev State.at (b : State) (r : Run) : State := { b with seq := .run r }

/-- The run record at the micro-op `n`, with no poll made. -/
abbrev Run.goto (r : Run) (n : Nat) : Run := { r with step := n, iter := 0 }

/-- The eager effect of a byte write `T_WRITE(x, dst)`. -/
def wroteByte (x : Byte) (toRes : Bool) (b : State) : State :=
  { b with
    ci := true
    ackstat := b.env.takeAck.1
    status.ack := b.env.takeAck.1
    diag.nack := if b.env.takeAck.1 then b.diag.nack + 1 else b.diag.nack
    res := if toRes then bitWord b.env.takeAck.1 else b.res
    env := b.env.takeAck.2
    trace := b.trace ++ [issued b.fs (.tx x), plain (.txdone b.env.takeAck.1)] }

/-- The eager effect of a byte read `T_READ(sendAck, dst)`, but for where the byte goes. -/
def readByte (sendAck : Bool) (b : State) : State :=
  { b with
    rxbuf := b.env.takeByte.1
    env := b.env.takeByte.2
    trace := b.trace ++
      [issued b.fs .rx, plain (.rxdone b.env.takeByte.1), issued b.fs (.ackdrv (!sendAck)), plain .ackdone] }

/-- The eager effect of a condition. -/
def conditioned (c : Cond) (b : State) : State :=
  { b with fs := c.framing, trace := b.trace ++ [emitted b.fs c] }

theorem getElem?_lt {α : Type} {l : List α} {n : Nat} {a : α} (h : l[n]? = some a) : n < l.length :=
  (List.getElem?_eq_some_iff.mp h).1

/-- The eager effect of `[WAIT_IDLE, COND(c)]`. -/
theorem eager_cond {b : State} {r : Run} {n : Nat} {c : Cond} (hq : b.phy = ⟨none, false⟩)
    (hn : r.step = n) (h0 : r.prog[n]? = some .waitIdle) (h1 : r.prog[n + 1]? = some (.cond c)) :
    runTurns (eager 2) (b.at r) = .next (advanceTo (n + 2) r (conditioned c b)) := by
  subst hn
  have l1 := getElem?_lt h1
  have e0 : seqStep (b.at r) = b.at (r.goto (r.step + 1)) := by
    rw [seqStep_run (r := r) rfl h0]
    simp [MuOp.run, pollIdle_clean (s := b.at r) (by simp [hq]), hq, waitPoll, advance, advanceTo_lt l1]
  have e1 : seqStep (b.at (r.goto (r.step + 1))) = advanceTo (r.step + 2) r (conditioned c b) := by
    rw [seqStep_run (r := r.goto (r.step + 1)) rfl h1]
    have : phyCond c (b.at (r.goto (r.step + 1))) = (conditioned c b).at (r.goto (r.step + 1)) := by
      simp [phyCond, emitCond, hq, conditioned, logFlagged, emitted]
    simp only [MuOp.run, advance, this]
    rfl
  have e2 : phyStep (advanceTo (r.step + 2) r (conditioned c b)) = advanceTo (r.step + 2) r (conditioned c b) := by
    apply phyStep_none
    rw [advanceTo_eq]
    exact hq
  simp only [eager, runTurns_seq, runTurns_phy, e0, phyStep_none (s := b.at (r.goto (r.step + 1))) hq, e1, e2,
    runTurns_nil]

/-- The byte a TXGO sends depends on the run's temporaries, on LADDR and on S.arg alone. -/
theorem eval_congr (src : ByteSrc) {r r' : Run} {b q : State} (h0 : r'.t0 = r.t0) (h1 : r'.t1 = r.t1)
    (hl : q.laddr = b.laddr) (ha : q.argLatch = b.argLatch) : src.eval r' q = src.eval r b := by
  induction src with
  | succ x ih => simp only [ByteSrc.eval, ih]
  | _ => simp [ByteSrc.eval, argByte, h0, h1, hl, ha]

/-- The eager effect of `T_WRITE(src, dst)`. -/
theorem eager_write {b : State} {r : Run} {n : Nat} {src : ByteSrc} {x : Byte} {toRes : Bool}
    (hq : b.phy = ⟨none, false⟩)
    (hn : r.step = n) (h0 : r.prog[n]? = some .clrCi) (h1 : r.prog[n + 1]? = some (.txgo src))
    (h2 : r.prog[n + 2]? = some .waitCi) (h3 : r.prog[n + 3]? = some (.capAck toRes)) (hx : src.eval r b = x) :
    runTurns (eager 4) (b.at r) = .next (advanceTo (n + 4) r (wroteByte x toRes b)) := by
  subst hn hx
  have l1 := getElem?_lt h1
  have l2 := getElem?_lt h2
  have l3 := getElem?_lt h3
  have e0 : seqStep (b.at r) = ({ b with ci := false } : State).at (r.goto (r.step + 1)) := by
    rw [seqStep_run (r := r) rfl h0]
    simp [MuOp.run, advance, advanceTo_lt l1]
  have p0 : phyStep (({ b with ci := false } : State).at (r.goto (r.step + 1))) =
      ({ b with ci := false } : State).at (r.goto (r.step + 1)) := phyStep_none hq
  have e1 : seqStep (({ b with ci := false } : State).at (r.goto (r.step + 1))) =
      ({ b with
        ci := false, phy := ⟨some (.tx (src.eval r b)), false⟩,
        trace := b.trace ++ [issued b.fs (.tx (src.eval r b))] } : State).at (r.goto (r.step + 2)) := by
    rw [seqStep_run (r := r.goto (r.step + 1)) rfl h1]
    have hx := eval_congr src (r := r) (r' := r.goto (r.step + 1)) (b := b)
      (q := ({ b with ci := false } : State).at (r.goto (r.step + 1))) rfl rfl rfl rfl
    simp only [MuOp.run, hx, advance]
    rw [advanceTo_lt (r := r.goto (r.step + 1)) (by simpa using l2)]
    simp [phyIssue, hq, logFlagged, issued]
  have p1 : phyStep (({ b with
        ci := false, phy := ⟨some (.tx (src.eval r b)), false⟩,
        trace := b.trace ++ [issued b.fs (.tx (src.eval r b))] } : State).at (r.goto (r.step + 2))) =
      ({ b with
        ci := true, ackstat := b.env.takeAck.1, env := b.env.takeAck.2,
        trace := b.trace ++ [issued b.fs (.tx (src.eval r b)), plain (.txdone b.env.takeAck.1)] } : State).at
          (r.goto (r.step + 2)) := by
    simp [phyStep, log, logFlagged, plain, hq]
  have e2 : seqStep (({ b with
        ci := true, ackstat := b.env.takeAck.1, env := b.env.takeAck.2,
        trace := b.trace ++ [issued b.fs (.tx (src.eval r b)), plain (.txdone b.env.takeAck.1)] } : State).at
          (r.goto (r.step + 2))) =
      ({ b with
        ci := true, ackstat := b.env.takeAck.1, env := b.env.takeAck.2,
        trace := b.trace ++ [issued b.fs (.tx (src.eval r b)), plain (.txdone b.env.takeAck.1)] } : State).at
          (r.goto (r.step + 3)) := by
    rw [seqStep_run (r := r.goto (r.step + 2)) rfl h2]
    simp [MuOp.run, pollCi, hq, waitPoll, advance, advanceTo_lt (r := r.goto (r.step + 2)) (show r.step + 2 + 1 < _ from l3)]
  have p2 : ∀ (m : Nat), phyStep (({ b with
        ci := true, ackstat := b.env.takeAck.1, env := b.env.takeAck.2,
        trace := b.trace ++ [issued b.fs (.tx (src.eval r b)), plain (.txdone b.env.takeAck.1)] } : State).at
          (r.goto m)) =
      ({ b with
        ci := true, ackstat := b.env.takeAck.1, env := b.env.takeAck.2,
        trace := b.trace ++ [issued b.fs (.tx (src.eval r b)), plain (.txdone b.env.takeAck.1)] } : State).at
          (r.goto m) := fun m => phyStep_none hq
  have e3 : seqStep (({ b with
        ci := true, ackstat := b.env.takeAck.1, env := b.env.takeAck.2,
        trace := b.trace ++ [issued b.fs (.tx (src.eval r b)), plain (.txdone b.env.takeAck.1)] } : State).at
          (r.goto (r.step + 3))) = advanceTo (r.step + 4) r (wroteByte (src.eval r b) toRes b) := by
    rw [seqStep_run (r := r.goto (r.step + 3)) rfl h3]
    have : captureAck toRes (({ b with
        ci := true, ackstat := b.env.takeAck.1, env := b.env.takeAck.2,
        trace := b.trace ++ [issued b.fs (.tx (src.eval r b)), plain (.txdone b.env.takeAck.1)] } : State).at
          (r.goto (r.step + 3))) = (wroteByte (src.eval r b) toRes b).at (r.goto (r.step + 3)) := by
      simp [captureAck, obsAck, hq, wroteByte]
    simp only [MuOp.run, advance, this]
    rfl
  have p3 : phyStep (advanceTo (r.step + 4) r (wroteByte (src.eval r b) toRes b)) =
      advanceTo (r.step + 4) r (wroteByte (src.eval r b) toRes b) := by
    apply phyStep_none
    rw [advanceTo_eq]
    exact hq
  simp only [eager, runTurns_seq, runTurns_phy, e0, p0, e1, p1, e2, p2, e3, p3, runTurns_nil]

/-- The run record once CAP_RX has put the byte `x` where it goes. -/
def RxDst.temps (dst : RxDst) (x : Byte) (r : Run) : Run :=
  match dst with
  | .res => r
  | .t0 => { r with t0 := x }
  | .t1 => { r with t1 := x }

/-- RES once CAP_RX has put the byte `x` where it goes. -/
def RxDst.result (dst : RxDst) (x : Byte) (w : Word) : Word :=
  match dst with
  | .res => x.setWidth 32
  | .t0 => w
  | .t1 => w

/-- The eager effect of `T_READ(sendAck, dst)`. -/
theorem eager_read {b : State} {r : Run} {n : Nat} {sa : Bool} {dst : RxDst} (hq : b.phy = ⟨none, false⟩)
    (hn : r.step = n) (h0 : r.prog[n]? = some .waitIdle) (h1 : r.prog[n + 1]? = some .rxgo)
    (h2 : r.prog[n + 2]? = some .waitIdle) (h3 : r.prog[n + 3]? = some (.capRx dst))
    (h4 : r.prog[n + 4]? = some (.ackgo (!sa))) :
    runTurns (eager 5) (b.at r) = .next (advanceTo (n + 5) (RxDst.temps dst b.env.takeByte.1 r)
      { readByte sa b with res := RxDst.result dst b.env.takeByte.1 b.res }) := by
  subst hn
  have l1 := getElem?_lt h1
  have l2 := getElem?_lt h2
  have l3 := getElem?_lt h3
  have l4 := getElem?_lt h4
  have e0 : seqStep (b.at r) = b.at (r.goto (r.step + 1)) := by
    rw [seqStep_run (r := r) rfl h0]
    simp [MuOp.run, pollIdle_clean (s := b.at r) (by simp [hq]), hq, waitPoll, advance, advanceTo_lt l1]
  have p0 : phyStep (b.at (r.goto (r.step + 1))) = b.at (r.goto (r.step + 1)) := phyStep_none hq
  have e1 : seqStep (b.at (r.goto (r.step + 1))) =
      ({ b with phy := ⟨some .rx, false⟩, trace := b.trace ++ [issued b.fs .rx] } : State).at (r.goto (r.step + 2)) := by
    rw [seqStep_run (r := r.goto (r.step + 1)) rfl h1]
    simp only [MuOp.run, advance]
    rw [advanceTo_lt (r := r.goto (r.step + 1)) (by simpa using l2)]
    simp [phyIssue, hq, logFlagged, issued]
  have p1 : phyStep (({ b with phy := ⟨some .rx, false⟩, trace := b.trace ++ [issued b.fs .rx] } : State).at
        (r.goto (r.step + 2))) =
      ({ b with
        rxbuf := b.env.takeByte.1, env := b.env.takeByte.2,
        trace := b.trace ++ [issued b.fs .rx, plain (.rxdone b.env.takeByte.1)] } : State).at (r.goto (r.step + 2)) := by
    simp [phyStep, log, logFlagged, plain, hq]
  have e2 : seqStep (({ b with
        rxbuf := b.env.takeByte.1, env := b.env.takeByte.2,
        trace := b.trace ++ [issued b.fs .rx, plain (.rxdone b.env.takeByte.1)] } : State).at (r.goto (r.step + 2))) =
      ({ b with
        rxbuf := b.env.takeByte.1, env := b.env.takeByte.2,
        trace := b.trace ++ [issued b.fs .rx, plain (.rxdone b.env.takeByte.1)] } : State).at (r.goto (r.step + 3)) := by
    rw [seqStep_run (r := r.goto (r.step + 2)) rfl h2]
    simp [MuOp.run, pollIdle, hq, waitPoll, advance, advanceTo_lt (r := r.goto (r.step + 2)) (show r.step + 2 + 1 < _ from l3)]
  have p2 : phyStep (({ b with
        rxbuf := b.env.takeByte.1, env := b.env.takeByte.2,
        trace := b.trace ++ [issued b.fs .rx, plain (.rxdone b.env.takeByte.1)] } : State).at (r.goto (r.step + 3))) =
      ({ b with
        rxbuf := b.env.takeByte.1, env := b.env.takeByte.2,
        trace := b.trace ++ [issued b.fs .rx, plain (.rxdone b.env.takeByte.1)] } : State).at (r.goto (r.step + 3)) :=
    phyStep_none hq
  have e3 : seqStep (({ b with
        rxbuf := b.env.takeByte.1, env := b.env.takeByte.2,
        trace := b.trace ++ [issued b.fs .rx, plain (.rxdone b.env.takeByte.1)] } : State).at (r.goto (r.step + 3))) =
      ({ b with
        rxbuf := b.env.takeByte.1, env := b.env.takeByte.2, res := RxDst.result dst b.env.takeByte.1 b.res,
        trace := b.trace ++ [issued b.fs .rx, plain (.rxdone b.env.takeByte.1)] } : State).at
          ((RxDst.temps dst b.env.takeByte.1 r).goto (r.step + 4)) := by
    rw [seqStep_run (r := r.goto (r.step + 3)) rfl h3]
    have hl : r.step + 3 + 1 < r.prog.length := l4
    cases dst <;>
      simp [MuOp.run, captureRx, obsRx, hq, advance, advanceTo, hl, RxDst.result, RxDst.temps]
  have p3 : phyStep (({ b with
        rxbuf := b.env.takeByte.1, env := b.env.takeByte.2, res := RxDst.result dst b.env.takeByte.1 b.res,
        trace := b.trace ++ [issued b.fs .rx, plain (.rxdone b.env.takeByte.1)] } : State).at
          ((RxDst.temps dst b.env.takeByte.1 r).goto (r.step + 4))) =
      ({ b with
        rxbuf := b.env.takeByte.1, env := b.env.takeByte.2, res := RxDst.result dst b.env.takeByte.1 b.res,
        trace := b.trace ++ [issued b.fs .rx, plain (.rxdone b.env.takeByte.1)] } : State).at
          ((RxDst.temps dst b.env.takeByte.1 r).goto (r.step + 4)) := phyStep_none hq
  have h4' : (RxDst.temps dst b.env.takeByte.1 r).prog[r.step + 4]? = some (.ackgo (!sa)) := by
    cases dst <;> exact h4
  have e4 : seqStep (({ b with
        rxbuf := b.env.takeByte.1, env := b.env.takeByte.2, res := RxDst.result dst b.env.takeByte.1 b.res,
        trace := b.trace ++ [issued b.fs .rx, plain (.rxdone b.env.takeByte.1)] } : State).at
          ((RxDst.temps dst b.env.takeByte.1 r).goto (r.step + 4))) =
      advanceTo (r.step + 5) (RxDst.temps dst b.env.takeByte.1 r)
        { b with
          rxbuf := b.env.takeByte.1, env := b.env.takeByte.2, res := RxDst.result dst b.env.takeByte.1 b.res,
          phy := ⟨some (.ackdrv (!sa)), false⟩,
          trace := b.trace ++ [issued b.fs .rx, plain (.rxdone b.env.takeByte.1), issued b.fs (.ackdrv (!sa))] } := by
    rw [seqStep_run (r := (RxDst.temps dst b.env.takeByte.1 r).goto (r.step + 4)) rfl h4']
    simp [MuOp.run, advance, phyIssue, hq, logFlagged, issued, advanceTo]
  have p4 : ∀ (q : Sequencer), phyStep { b with
          rxbuf := b.env.takeByte.1, env := b.env.takeByte.2, res := RxDst.result dst b.env.takeByte.1 b.res,
          phy := ⟨some (.ackdrv (!sa)), false⟩, seq := q,
          trace := b.trace ++ [issued b.fs .rx, plain (.rxdone b.env.takeByte.1), issued b.fs (.ackdrv (!sa))] } =
      { readByte sa b with res := RxDst.result dst b.env.takeByte.1 b.res, seq := q } := by
    intro q
    simp [phyStep, log, logFlagged, plain, readByte, hq]
  have p4' : phyStep (advanceTo (r.step + 5) (RxDst.temps dst b.env.takeByte.1 r)
        { b with
          rxbuf := b.env.takeByte.1, env := b.env.takeByte.2, res := RxDst.result dst b.env.takeByte.1 b.res,
          phy := ⟨some (.ackdrv (!sa)), false⟩,
          trace := b.trace ++ [issued b.fs .rx, plain (.rxdone b.env.takeByte.1), issued b.fs (.ackdrv (!sa))] }) =
      advanceTo (r.step + 5) (RxDst.temps dst b.env.takeByte.1 r)
        { readByte sa b with res := RxDst.result dst b.env.takeByte.1 b.res } := by
    unfold advanceTo
    split <;> exact p4 _
  simp only [eager, runTurns_seq, runTurns_phy, e0, p0, e1, p1, e2, p2, e3, p3, e4, p4', runTurns_nil]

/-- The eager effect of a SET micro-op that leaves the PHY idle. -/
theorem eager_set {b : State} {r : Run} {n : Nat} {e : SetOp} (hn : r.step = n) (h0 : r.prog[n]? = some (.set e))
    (hq : (e.apply r (b.at r)).phy = ⟨none, false⟩) :
    runTurns (eager 1) (b.at r) = .next (advanceTo (n + 1) (e.temps r (b.at r)) (e.apply r (b.at r))) := by
  subst hn
  have ht : (e.temps r (b.at r)).step = r.step := by cases e <;> rfl
  simp only [eager, runTurns_seq, runTurns_phy, seqStep_run (s := b.at r) (r := r) rfl h0, MuOp.run, advance,
    runTurns_nil, ht]
  rw [phyStep_none]
  rw [advanceTo_eq]
  exact hq

/-! ### Chaining the segments of a program -/

/-- A command other than NOP that is not turned away starts at its program's first micro-op. -/
theorem exec_run (i : Instr) (s : State) (h : i ≠ .nop) (h1 : i = .init → s.argLatch ≠ 0)
    (h2 : needsInit i = true → s.initd = true) : exec i s = .next (s.at (Run.fresh i (program i))) := by
  rw [exec_eq, if_neg (fun c => h1 c.1 c.2), if_neg (fun c => by simp [h2 c.1] at c)]
  rcases launch_cases i (program i) s with ⟨e, _⟩ | ⟨_, e⟩
  · exact absurd e (program_ne_nil h)
  · rw [e]

/-- A segment that ends inside the program, then the rest. -/
theorem eager_chain {m n k : Nat} {b b' u : State} {r r' : Run}
    (h : runTurns (eager m) (b.at r) = .next (advanceTo k r' b')) (hk : Nat.ble (k + 1) r'.prog.length = true)
    (h2 : runTurns (eager n) (b'.at (r'.goto k)) = .next u) : runTurns (eager (m + n)) (b.at r) = .next u := by
  rw [eager_then h, advanceTo_lt (Nat.le_of_ble_eq_true hk)]
  exact h2

/-- A segment that ends the program. -/
theorem eager_finish {m k : Nat} {b b' u : State} {r r' : Run}
    (h : runTurns (eager m) (b.at r) = .next (advanceTo k r' b')) (hk : Nat.ble r'.prog.length k = true)
    (h2 : { b' with seq := .idle } = u) : runTurns (eager m) (b.at r) = .next u := by
  rw [h, advanceTo_end (Nat.le_of_ble_eq_true hk), h2]

/-- DIAG_NACK after one captured bit. -/
theorem nack_one (a : Bool) (w : Word) : (if a = true then w + 1#32 else w) = w + nackCount [a] := by
  cases a <;> simp [nackCount]

theorem nackCount_cons (a b : Bool) (l : List Bool) :
    nackCount (a :: b :: l) = nackCount [a] + nackCount (b :: l) := by
  cases a <;> simp [nackCount, BitVec.ofNat_add, BitVec.add_comm]

end Sys2Proof.Machine
end

