-- ==== Sys2Proof/Laws/Frames.lean ====
section
/-! SUPPORT. What each shared operation that branches leaves as it was: one lemma per field it never writes. -/

namespace Sys2Proof.Machine

/-! ### raiseCmdError writes status and nothing else -/

@[simp] theorem raiseCmdError_ctrl (c : ErrCode) (s : State) : (raiseCmdError c s).ctrl = s.ctrl := by
  unfold raiseCmdError; (repeat' split) <;> rfl
@[simp] theorem raiseCmdError_arg (c : ErrCode) (s : State) : (raiseCmdError c s).arg = s.arg := by
  unfold raiseCmdError; (repeat' split) <;> rfl
@[simp] theorem raiseCmdError_cmd (c : ErrCode) (s : State) : (raiseCmdError c s).cmd = s.cmd := by
  unfold raiseCmdError; (repeat' split) <;> rfl
@[simp] theorem raiseCmdError_res (c : ErrCode) (s : State) : (raiseCmdError c s).res = s.res := by
  unfold raiseCmdError; (repeat' split) <;> rfl
@[simp] theorem raiseCmdError_clkHz (c : ErrCode) (s : State) : (raiseCmdError c s).clkHz = s.clkHz := by
  unfold raiseCmdError; (repeat' split) <;> rfl
@[simp] theorem raiseCmdError_laddr (c : ErrCode) (s : State) : (raiseCmdError c s).laddr = s.laddr := by
  unfold raiseCmdError; (repeat' split) <;> rfl
@[simp] theorem raiseCmdError_cnt (c : ErrCode) (s : State) : (raiseCmdError c s).cnt = s.cnt := by
  unfold raiseCmdError; (repeat' split) <;> rfl
@[simp] theorem raiseCmdError_nodeType (c : ErrCode) (s : State) : (raiseCmdError c s).nodeType = s.nodeType := by
  unfold raiseCmdError; (repeat' split) <;> rfl
@[simp] theorem raiseCmdError_uid0 (c : ErrCode) (s : State) : (raiseCmdError c s).uid0 = s.uid0 := by
  unfold raiseCmdError; (repeat' split) <;> rfl
@[simp] theorem raiseCmdError_uid1 (c : ErrCode) (s : State) : (raiseCmdError c s).uid1 = s.uid1 := by
  unfold raiseCmdError; (repeat' split) <;> rfl
@[simp] theorem raiseCmdError_swver (c : ErrCode) (s : State) : (raiseCmdError c s).swver = s.swver := by
  unfold raiseCmdError; (repeat' split) <;> rfl
@[simp] theorem raiseCmdError_batt (c : ErrCode) (s : State) : (raiseCmdError c s).batt = s.batt := by
  unfold raiseCmdError; (repeat' split) <;> rfl
@[simp] theorem raiseCmdError_temp (c : ErrCode) (s : State) : (raiseCmdError c s).temp = s.temp := by
  unfold raiseCmdError; (repeat' split) <;> rfl
@[simp] theorem raiseCmdError_uva (c : ErrCode) (s : State) : (raiseCmdError c s).uva = s.uva := by
  unfold raiseCmdError; (repeat' split) <;> rfl
@[simp] theorem raiseCmdError_uvb (c : ErrCode) (s : State) : (raiseCmdError c s).uvb = s.uvb := by
  unfold raiseCmdError; (repeat' split) <;> rfl
@[simp] theorem raiseCmdError_comp1 (c : ErrCode) (s : State) : (raiseCmdError c s).comp1 = s.comp1 := by
  unfold raiseCmdError; (repeat' split) <;> rfl
@[simp] theorem raiseCmdError_comp2 (c : ErrCode) (s : State) : (raiseCmdError c s).comp2 = s.comp2 := by
  unfold raiseCmdError; (repeat' split) <;> rfl
@[simp] theorem raiseCmdError_light (c : ErrCode) (s : State) : (raiseCmdError c s).light = s.light := by
  unfold raiseCmdError; (repeat' split) <;> rfl
@[simp] theorem raiseCmdError_diag (c : ErrCode) (s : State) : (raiseCmdError c s).diag = s.diag := by
  unfold raiseCmdError; (repeat' split) <;> rfl
@[simp] theorem raiseCmdError_frame (c : ErrCode) (s : State) : (raiseCmdError c s).frame = s.frame := by
  unfold raiseCmdError; (repeat' split) <;> rfl
@[simp] theorem raiseCmdError_phy (c : ErrCode) (s : State) : (raiseCmdError c s).phy = s.phy := by
  unfold raiseCmdError; (repeat' split) <;> rfl
@[simp] theorem raiseCmdError_ci (c : ErrCode) (s : State) : (raiseCmdError c s).ci = s.ci := by
  unfold raiseCmdError; (repeat' split) <;> rfl
@[simp] theorem raiseCmdError_ackstat (c : ErrCode) (s : State) : (raiseCmdError c s).ackstat = s.ackstat := by
  unfold raiseCmdError; (repeat' split) <;> rfl
@[simp] theorem raiseCmdError_rxbuf (c : ErrCode) (s : State) : (raiseCmdError c s).rxbuf = s.rxbuf := by
  unfold raiseCmdError; (repeat' split) <;> rfl
@[simp] theorem raiseCmdError_fs (c : ErrCode) (s : State) : (raiseCmdError c s).fs = s.fs := by
  unfold raiseCmdError; (repeat' split) <;> rfl
@[simp] theorem raiseCmdError_seq (c : ErrCode) (s : State) : (raiseCmdError c s).seq = s.seq := by
  unfold raiseCmdError; (repeat' split) <;> rfl
@[simp] theorem raiseCmdError_pins (c : ErrCode) (s : State) : (raiseCmdError c s).pins = s.pins := by
  unfold raiseCmdError; (repeat' split) <;> rfl
@[simp] theorem raiseCmdError_trace (c : ErrCode) (s : State) : (raiseCmdError c s).trace = s.trace := by
  unfold raiseCmdError; (repeat' split) <;> rfl
@[simp] theorem raiseCmdError_initd (c : ErrCode) (s : State) : (raiseCmdError c s).initd = s.initd := by
  unfold raiseCmdError; (repeat' split) <;> rfl
@[simp] theorem raiseCmdError_argLatch (c : ErrCode) (s : State) : (raiseCmdError c s).argLatch = s.argLatch := by
  unfold raiseCmdError; (repeat' split) <;> rfl
@[simp] theorem raiseCmdError_host (c : ErrCode) (s : State) : (raiseCmdError c s).host = s.host := by
  unfold raiseCmdError; (repeat' split) <;> rfl
@[simp] theorem raiseCmdError_rdata (c : ErrCode) (s : State) : (raiseCmdError c s).rdata = s.rdata := by
  unfold raiseCmdError; (repeat' split) <;> rfl
@[simp] theorem raiseCmdError_sched (c : ErrCode) (s : State) : (raiseCmdError c s).sched = s.sched := by
  unfold raiseCmdError; (repeat' split) <;> rfl
@[simp] theorem raiseCmdError_turns (c : ErrCode) (s : State) : (raiseCmdError c s).turns = s.turns := by
  unfold raiseCmdError; (repeat' split) <;> rfl
@[simp] theorem raiseCmdError_env (c : ErrCode) (s : State) : (raiseCmdError c s).env = s.env := by
  unfold raiseCmdError; (repeat' split) <;> rfl

/-! ### abandonOpen writes trace and nothing else -/

@[simp] theorem abandonOpen_ctrl (s : State) : (abandonOpen s).ctrl = s.ctrl := by
  unfold abandonOpen; (repeat' split) <;> rfl
@[simp] theorem abandonOpen_status (s : State) : (abandonOpen s).status = s.status := by
  unfold abandonOpen; (repeat' split) <;> rfl
@[simp] theorem abandonOpen_arg (s : State) : (abandonOpen s).arg = s.arg := by
  unfold abandonOpen; (repeat' split) <;> rfl
@[simp] theorem abandonOpen_cmd (s : State) : (abandonOpen s).cmd = s.cmd := by
  unfold abandonOpen; (repeat' split) <;> rfl
@[simp] theorem abandonOpen_res (s : State) : (abandonOpen s).res = s.res := by
  unfold abandonOpen; (repeat' split) <;> rfl
@[simp] theorem abandonOpen_clkHz (s : State) : (abandonOpen s).clkHz = s.clkHz := by
  unfold abandonOpen; (repeat' split) <;> rfl
@[simp] theorem abandonOpen_laddr (s : State) : (abandonOpen s).laddr = s.laddr := by
  unfold abandonOpen; (repeat' split) <;> rfl
@[simp] theorem abandonOpen_cnt (s : State) : (abandonOpen s).cnt = s.cnt := by
  unfold abandonOpen; (repeat' split) <;> rfl
@[simp] theorem abandonOpen_nodeType (s : State) : (abandonOpen s).nodeType = s.nodeType := by
  unfold abandonOpen; (repeat' split) <;> rfl
@[simp] theorem abandonOpen_uid0 (s : State) : (abandonOpen s).uid0 = s.uid0 := by
  unfold abandonOpen; (repeat' split) <;> rfl
@[simp] theorem abandonOpen_uid1 (s : State) : (abandonOpen s).uid1 = s.uid1 := by
  unfold abandonOpen; (repeat' split) <;> rfl
@[simp] theorem abandonOpen_swver (s : State) : (abandonOpen s).swver = s.swver := by
  unfold abandonOpen; (repeat' split) <;> rfl
@[simp] theorem abandonOpen_batt (s : State) : (abandonOpen s).batt = s.batt := by
  unfold abandonOpen; (repeat' split) <;> rfl
@[simp] theorem abandonOpen_temp (s : State) : (abandonOpen s).temp = s.temp := by
  unfold abandonOpen; (repeat' split) <;> rfl
@[simp] theorem abandonOpen_uva (s : State) : (abandonOpen s).uva = s.uva := by
  unfold abandonOpen; (repeat' split) <;> rfl
@[simp] theorem abandonOpen_uvb (s : State) : (abandonOpen s).uvb = s.uvb := by
  unfold abandonOpen; (repeat' split) <;> rfl
@[simp] theorem abandonOpen_comp1 (s : State) : (abandonOpen s).comp1 = s.comp1 := by
  unfold abandonOpen; (repeat' split) <;> rfl
@[simp] theorem abandonOpen_comp2 (s : State) : (abandonOpen s).comp2 = s.comp2 := by
  unfold abandonOpen; (repeat' split) <;> rfl
@[simp] theorem abandonOpen_light (s : State) : (abandonOpen s).light = s.light := by
  unfold abandonOpen; (repeat' split) <;> rfl
@[simp] theorem abandonOpen_diag (s : State) : (abandonOpen s).diag = s.diag := by
  unfold abandonOpen; (repeat' split) <;> rfl
@[simp] theorem abandonOpen_frame (s : State) : (abandonOpen s).frame = s.frame := by
  unfold abandonOpen; (repeat' split) <;> rfl
@[simp] theorem abandonOpen_phy (s : State) : (abandonOpen s).phy = s.phy := by
  unfold abandonOpen; (repeat' split) <;> rfl
@[simp] theorem abandonOpen_ci (s : State) : (abandonOpen s).ci = s.ci := by
  unfold abandonOpen; (repeat' split) <;> rfl
@[simp] theorem abandonOpen_ackstat (s : State) : (abandonOpen s).ackstat = s.ackstat := by
  unfold abandonOpen; (repeat' split) <;> rfl
@[simp] theorem abandonOpen_rxbuf (s : State) : (abandonOpen s).rxbuf = s.rxbuf := by
  unfold abandonOpen; (repeat' split) <;> rfl
@[simp] theorem abandonOpen_fs (s : State) : (abandonOpen s).fs = s.fs := by
  unfold abandonOpen; (repeat' split) <;> rfl
@[simp] theorem abandonOpen_seq (s : State) : (abandonOpen s).seq = s.seq := by
  unfold abandonOpen; (repeat' split) <;> rfl
@[simp] theorem abandonOpen_pins (s : State) : (abandonOpen s).pins = s.pins := by
  unfold abandonOpen; (repeat' split) <;> rfl
@[simp] theorem abandonOpen_initd (s : State) : (abandonOpen s).initd = s.initd := by
  unfold abandonOpen; (repeat' split) <;> rfl
@[simp] theorem abandonOpen_argLatch (s : State) : (abandonOpen s).argLatch = s.argLatch := by
  unfold abandonOpen; (repeat' split) <;> rfl
@[simp] theorem abandonOpen_host (s : State) : (abandonOpen s).host = s.host := by
  unfold abandonOpen; (repeat' split) <;> rfl
@[simp] theorem abandonOpen_rdata (s : State) : (abandonOpen s).rdata = s.rdata := by
  unfold abandonOpen; (repeat' split) <;> rfl
@[simp] theorem abandonOpen_sched (s : State) : (abandonOpen s).sched = s.sched := by
  unfold abandonOpen; (repeat' split) <;> rfl
@[simp] theorem abandonOpen_turns (s : State) : (abandonOpen s).turns = s.turns := by
  unfold abandonOpen; (repeat' split) <;> rfl
@[simp] theorem abandonOpen_env (s : State) : (abandonOpen s).env = s.env := by
  unfold abandonOpen; (repeat' split) <;> rfl

/-! ### initEffect writes phy, ci, ackstat, rxbuf, fs, pins, clkHz, initd, trace and nothing else -/

@[simp] theorem initEffect_ctrl (s : State) : (initEffect s).ctrl = s.ctrl := by
  unfold initEffect abandonOpen; split <;> rfl
@[simp] theorem initEffect_status (s : State) : (initEffect s).status = s.status := by
  unfold initEffect abandonOpen; split <;> rfl
@[simp] theorem initEffect_arg (s : State) : (initEffect s).arg = s.arg := by
  unfold initEffect abandonOpen; split <;> rfl
@[simp] theorem initEffect_cmd (s : State) : (initEffect s).cmd = s.cmd := by
  unfold initEffect abandonOpen; split <;> rfl
@[simp] theorem initEffect_res (s : State) : (initEffect s).res = s.res := by
  unfold initEffect abandonOpen; split <;> rfl
@[simp] theorem initEffect_laddr (s : State) : (initEffect s).laddr = s.laddr := by
  unfold initEffect abandonOpen; split <;> rfl
@[simp] theorem initEffect_cnt (s : State) : (initEffect s).cnt = s.cnt := by
  unfold initEffect abandonOpen; split <;> rfl
@[simp] theorem initEffect_nodeType (s : State) : (initEffect s).nodeType = s.nodeType := by
  unfold initEffect abandonOpen; split <;> rfl
@[simp] theorem initEffect_uid0 (s : State) : (initEffect s).uid0 = s.uid0 := by
  unfold initEffect abandonOpen; split <;> rfl
@[simp] theorem initEffect_uid1 (s : State) : (initEffect s).uid1 = s.uid1 := by
  unfold initEffect abandonOpen; split <;> rfl
@[simp] theorem initEffect_swver (s : State) : (initEffect s).swver = s.swver := by
  unfold initEffect abandonOpen; split <;> rfl
@[simp] theorem initEffect_batt (s : State) : (initEffect s).batt = s.batt := by
  unfold initEffect abandonOpen; split <;> rfl
@[simp] theorem initEffect_temp (s : State) : (initEffect s).temp = s.temp := by
  unfold initEffect abandonOpen; split <;> rfl
@[simp] theorem initEffect_uva (s : State) : (initEffect s).uva = s.uva := by
  unfold initEffect abandonOpen; split <;> rfl
@[simp] theorem initEffect_uvb (s : State) : (initEffect s).uvb = s.uvb := by
  unfold initEffect abandonOpen; split <;> rfl
@[simp] theorem initEffect_comp1 (s : State) : (initEffect s).comp1 = s.comp1 := by
  unfold initEffect abandonOpen; split <;> rfl
@[simp] theorem initEffect_comp2 (s : State) : (initEffect s).comp2 = s.comp2 := by
  unfold initEffect abandonOpen; split <;> rfl
@[simp] theorem initEffect_light (s : State) : (initEffect s).light = s.light := by
  unfold initEffect abandonOpen; split <;> rfl
@[simp] theorem initEffect_diag (s : State) : (initEffect s).diag = s.diag := by
  unfold initEffect abandonOpen; split <;> rfl
@[simp] theorem initEffect_frame (s : State) : (initEffect s).frame = s.frame := by
  unfold initEffect abandonOpen; split <;> rfl
@[simp] theorem initEffect_seq (s : State) : (initEffect s).seq = s.seq := by
  unfold initEffect abandonOpen; split <;> rfl
@[simp] theorem initEffect_argLatch (s : State) : (initEffect s).argLatch = s.argLatch := by
  unfold initEffect abandonOpen; split <;> rfl
@[simp] theorem initEffect_host (s : State) : (initEffect s).host = s.host := by
  unfold initEffect abandonOpen; split <;> rfl
@[simp] theorem initEffect_rdata (s : State) : (initEffect s).rdata = s.rdata := by
  unfold initEffect abandonOpen; split <;> rfl
@[simp] theorem initEffect_sched (s : State) : (initEffect s).sched = s.sched := by
  unfold initEffect abandonOpen; split <;> rfl
@[simp] theorem initEffect_turns (s : State) : (initEffect s).turns = s.turns := by
  unfold initEffect abandonOpen; split <;> rfl
@[simp] theorem initEffect_env (s : State) : (initEffect s).env = s.env := by
  unfold initEffect abandonOpen; split <;> rfl

/-! ### deinitEffect writes phy, ci, fs, pins, initd, trace and nothing else -/

@[simp] theorem deinitEffect_ctrl (s : State) : (deinitEffect s).ctrl = s.ctrl := by
  unfold deinitEffect abandonOpen; split <;> rfl
@[simp] theorem deinitEffect_status (s : State) : (deinitEffect s).status = s.status := by
  unfold deinitEffect abandonOpen; split <;> rfl
@[simp] theorem deinitEffect_arg (s : State) : (deinitEffect s).arg = s.arg := by
  unfold deinitEffect abandonOpen; split <;> rfl
@[simp] theorem deinitEffect_cmd (s : State) : (deinitEffect s).cmd = s.cmd := by
  unfold deinitEffect abandonOpen; split <;> rfl
@[simp] theorem deinitEffect_res (s : State) : (deinitEffect s).res = s.res := by
  unfold deinitEffect abandonOpen; split <;> rfl
@[simp] theorem deinitEffect_clkHz (s : State) : (deinitEffect s).clkHz = s.clkHz := by
  unfold deinitEffect abandonOpen; split <;> rfl
@[simp] theorem deinitEffect_laddr (s : State) : (deinitEffect s).laddr = s.laddr := by
  unfold deinitEffect abandonOpen; split <;> rfl
@[simp] theorem deinitEffect_cnt (s : State) : (deinitEffect s).cnt = s.cnt := by
  unfold deinitEffect abandonOpen; split <;> rfl
@[simp] theorem deinitEffect_nodeType (s : State) : (deinitEffect s).nodeType = s.nodeType := by
  unfold deinitEffect abandonOpen; split <;> rfl
@[simp] theorem deinitEffect_uid0 (s : State) : (deinitEffect s).uid0 = s.uid0 := by
  unfold deinitEffect abandonOpen; split <;> rfl
@[simp] theorem deinitEffect_uid1 (s : State) : (deinitEffect s).uid1 = s.uid1 := by
  unfold deinitEffect abandonOpen; split <;> rfl
@[simp] theorem deinitEffect_swver (s : State) : (deinitEffect s).swver = s.swver := by
  unfold deinitEffect abandonOpen; split <;> rfl
@[simp] theorem deinitEffect_batt (s : State) : (deinitEffect s).batt = s.batt := by
  unfold deinitEffect abandonOpen; split <;> rfl
@[simp] theorem deinitEffect_temp (s : State) : (deinitEffect s).temp = s.temp := by
  unfold deinitEffect abandonOpen; split <;> rfl
@[simp] theorem deinitEffect_uva (s : State) : (deinitEffect s).uva = s.uva := by
  unfold deinitEffect abandonOpen; split <;> rfl
@[simp] theorem deinitEffect_uvb (s : State) : (deinitEffect s).uvb = s.uvb := by
  unfold deinitEffect abandonOpen; split <;> rfl
@[simp] theorem deinitEffect_comp1 (s : State) : (deinitEffect s).comp1 = s.comp1 := by
  unfold deinitEffect abandonOpen; split <;> rfl
@[simp] theorem deinitEffect_comp2 (s : State) : (deinitEffect s).comp2 = s.comp2 := by
  unfold deinitEffect abandonOpen; split <;> rfl
@[simp] theorem deinitEffect_light (s : State) : (deinitEffect s).light = s.light := by
  unfold deinitEffect abandonOpen; split <;> rfl
@[simp] theorem deinitEffect_diag (s : State) : (deinitEffect s).diag = s.diag := by
  unfold deinitEffect abandonOpen; split <;> rfl
@[simp] theorem deinitEffect_frame (s : State) : (deinitEffect s).frame = s.frame := by
  unfold deinitEffect abandonOpen; split <;> rfl
@[simp] theorem deinitEffect_ackstat (s : State) : (deinitEffect s).ackstat = s.ackstat := by
  unfold deinitEffect abandonOpen; split <;> rfl
@[simp] theorem deinitEffect_rxbuf (s : State) : (deinitEffect s).rxbuf = s.rxbuf := by
  unfold deinitEffect abandonOpen; split <;> rfl
@[simp] theorem deinitEffect_seq (s : State) : (deinitEffect s).seq = s.seq := by
  unfold deinitEffect abandonOpen; split <;> rfl
@[simp] theorem deinitEffect_argLatch (s : State) : (deinitEffect s).argLatch = s.argLatch := by
  unfold deinitEffect abandonOpen; split <;> rfl
@[simp] theorem deinitEffect_host (s : State) : (deinitEffect s).host = s.host := by
  unfold deinitEffect abandonOpen; split <;> rfl
@[simp] theorem deinitEffect_rdata (s : State) : (deinitEffect s).rdata = s.rdata := by
  unfold deinitEffect abandonOpen; split <;> rfl
@[simp] theorem deinitEffect_sched (s : State) : (deinitEffect s).sched = s.sched := by
  unfold deinitEffect abandonOpen; split <;> rfl
@[simp] theorem deinitEffect_turns (s : State) : (deinitEffect s).turns = s.turns := by
  unfold deinitEffect abandonOpen; split <;> rfl
@[simp] theorem deinitEffect_env (s : State) : (deinitEffect s).env = s.env := by
  unfold deinitEffect abandonOpen; split <;> rfl

/-! ### phyIssue writes phy, status, diag, trace and nothing else -/

@[simp] theorem phyIssue_ctrl (o : PhyOp) (s : State) : (phyIssue o s).ctrl = s.ctrl := by
  unfold phyIssue; (repeat' split) <;> rfl
@[simp] theorem phyIssue_arg (o : PhyOp) (s : State) : (phyIssue o s).arg = s.arg := by
  unfold phyIssue; (repeat' split) <;> rfl
@[simp] theorem phyIssue_cmd (o : PhyOp) (s : State) : (phyIssue o s).cmd = s.cmd := by
  unfold phyIssue; (repeat' split) <;> rfl
@[simp] theorem phyIssue_res (o : PhyOp) (s : State) : (phyIssue o s).res = s.res := by
  unfold phyIssue; (repeat' split) <;> rfl
@[simp] theorem phyIssue_clkHz (o : PhyOp) (s : State) : (phyIssue o s).clkHz = s.clkHz := by
  unfold phyIssue; (repeat' split) <;> rfl
@[simp] theorem phyIssue_laddr (o : PhyOp) (s : State) : (phyIssue o s).laddr = s.laddr := by
  unfold phyIssue; (repeat' split) <;> rfl
@[simp] theorem phyIssue_cnt (o : PhyOp) (s : State) : (phyIssue o s).cnt = s.cnt := by
  unfold phyIssue; (repeat' split) <;> rfl
@[simp] theorem phyIssue_nodeType (o : PhyOp) (s : State) : (phyIssue o s).nodeType = s.nodeType := by
  unfold phyIssue; (repeat' split) <;> rfl
@[simp] theorem phyIssue_uid0 (o : PhyOp) (s : State) : (phyIssue o s).uid0 = s.uid0 := by
  unfold phyIssue; (repeat' split) <;> rfl
@[simp] theorem phyIssue_uid1 (o : PhyOp) (s : State) : (phyIssue o s).uid1 = s.uid1 := by
  unfold phyIssue; (repeat' split) <;> rfl
@[simp] theorem phyIssue_swver (o : PhyOp) (s : State) : (phyIssue o s).swver = s.swver := by
  unfold phyIssue; (repeat' split) <;> rfl
@[simp] theorem phyIssue_batt (o : PhyOp) (s : State) : (phyIssue o s).batt = s.batt := by
  unfold phyIssue; (repeat' split) <;> rfl
@[simp] theorem phyIssue_temp (o : PhyOp) (s : State) : (phyIssue o s).temp = s.temp := by
  unfold phyIssue; (repeat' split) <;> rfl
@[simp] theorem phyIssue_uva (o : PhyOp) (s : State) : (phyIssue o s).uva = s.uva := by
  unfold phyIssue; (repeat' split) <;> rfl
@[simp] theorem phyIssue_uvb (o : PhyOp) (s : State) : (phyIssue o s).uvb = s.uvb := by
  unfold phyIssue; (repeat' split) <;> rfl
@[simp] theorem phyIssue_comp1 (o : PhyOp) (s : State) : (phyIssue o s).comp1 = s.comp1 := by
  unfold phyIssue; (repeat' split) <;> rfl
@[simp] theorem phyIssue_comp2 (o : PhyOp) (s : State) : (phyIssue o s).comp2 = s.comp2 := by
  unfold phyIssue; (repeat' split) <;> rfl
@[simp] theorem phyIssue_light (o : PhyOp) (s : State) : (phyIssue o s).light = s.light := by
  unfold phyIssue; (repeat' split) <;> rfl
@[simp] theorem phyIssue_frame (o : PhyOp) (s : State) : (phyIssue o s).frame = s.frame := by
  unfold phyIssue; (repeat' split) <;> rfl
@[simp] theorem phyIssue_ci (o : PhyOp) (s : State) : (phyIssue o s).ci = s.ci := by
  unfold phyIssue; (repeat' split) <;> rfl
@[simp] theorem phyIssue_ackstat (o : PhyOp) (s : State) : (phyIssue o s).ackstat = s.ackstat := by
  unfold phyIssue; (repeat' split) <;> rfl
@[simp] theorem phyIssue_rxbuf (o : PhyOp) (s : State) : (phyIssue o s).rxbuf = s.rxbuf := by
  unfold phyIssue; (repeat' split) <;> rfl
@[simp] theorem phyIssue_fs (o : PhyOp) (s : State) : (phyIssue o s).fs = s.fs := by
  unfold phyIssue; (repeat' split) <;> rfl
@[simp] theorem phyIssue_seq (o : PhyOp) (s : State) : (phyIssue o s).seq = s.seq := by
  unfold phyIssue; (repeat' split) <;> rfl
@[simp] theorem phyIssue_pins (o : PhyOp) (s : State) : (phyIssue o s).pins = s.pins := by
  unfold phyIssue; (repeat' split) <;> rfl
@[simp] theorem phyIssue_initd (o : PhyOp) (s : State) : (phyIssue o s).initd = s.initd := by
  unfold phyIssue; (repeat' split) <;> rfl
@[simp] theorem phyIssue_argLatch (o : PhyOp) (s : State) : (phyIssue o s).argLatch = s.argLatch := by
  unfold phyIssue; (repeat' split) <;> rfl
@[simp] theorem phyIssue_host (o : PhyOp) (s : State) : (phyIssue o s).host = s.host := by
  unfold phyIssue; (repeat' split) <;> rfl
@[simp] theorem phyIssue_rdata (o : PhyOp) (s : State) : (phyIssue o s).rdata = s.rdata := by
  unfold phyIssue; (repeat' split) <;> rfl
@[simp] theorem phyIssue_sched (o : PhyOp) (s : State) : (phyIssue o s).sched = s.sched := by
  unfold phyIssue; (repeat' split) <;> rfl
@[simp] theorem phyIssue_turns (o : PhyOp) (s : State) : (phyIssue o s).turns = s.turns := by
  unfold phyIssue; (repeat' split) <;> rfl
@[simp] theorem phyIssue_env (o : PhyOp) (s : State) : (phyIssue o s).env = s.env := by
  unfold phyIssue; (repeat' split) <;> rfl

/-! ### emitCond writes phy, status, diag, trace and nothing else -/

@[simp] theorem emitCond_ctrl (c : Cond) (s : State) : (emitCond c s).ctrl = s.ctrl := by
  unfold emitCond; (repeat' split) <;> rfl
@[simp] theorem emitCond_arg (c : Cond) (s : State) : (emitCond c s).arg = s.arg := by
  unfold emitCond; (repeat' split) <;> rfl
@[simp] theorem emitCond_cmd (c : Cond) (s : State) : (emitCond c s).cmd = s.cmd := by
  unfold emitCond; (repeat' split) <;> rfl
@[simp] theorem emitCond_res (c : Cond) (s : State) : (emitCond c s).res = s.res := by
  unfold emitCond; (repeat' split) <;> rfl
@[simp] theorem emitCond_clkHz (c : Cond) (s : State) : (emitCond c s).clkHz = s.clkHz := by
  unfold emitCond; (repeat' split) <;> rfl
@[simp] theorem emitCond_laddr (c : Cond) (s : State) : (emitCond c s).laddr = s.laddr := by
  unfold emitCond; (repeat' split) <;> rfl
@[simp] theorem emitCond_cnt (c : Cond) (s : State) : (emitCond c s).cnt = s.cnt := by
  unfold emitCond; (repeat' split) <;> rfl
@[simp] theorem emitCond_nodeType (c : Cond) (s : State) : (emitCond c s).nodeType = s.nodeType := by
  unfold emitCond; (repeat' split) <;> rfl
@[simp] theorem emitCond_uid0 (c : Cond) (s : State) : (emitCond c s).uid0 = s.uid0 := by
  unfold emitCond; (repeat' split) <;> rfl
@[simp] theorem emitCond_uid1 (c : Cond) (s : State) : (emitCond c s).uid1 = s.uid1 := by
  unfold emitCond; (repeat' split) <;> rfl
@[simp] theorem emitCond_swver (c : Cond) (s : State) : (emitCond c s).swver = s.swver := by
  unfold emitCond; (repeat' split) <;> rfl
@[simp] theorem emitCond_batt (c : Cond) (s : State) : (emitCond c s).batt = s.batt := by
  unfold emitCond; (repeat' split) <;> rfl
@[simp] theorem emitCond_temp (c : Cond) (s : State) : (emitCond c s).temp = s.temp := by
  unfold emitCond; (repeat' split) <;> rfl
@[simp] theorem emitCond_uva (c : Cond) (s : State) : (emitCond c s).uva = s.uva := by
  unfold emitCond; (repeat' split) <;> rfl
@[simp] theorem emitCond_uvb (c : Cond) (s : State) : (emitCond c s).uvb = s.uvb := by
  unfold emitCond; (repeat' split) <;> rfl
@[simp] theorem emitCond_comp1 (c : Cond) (s : State) : (emitCond c s).comp1 = s.comp1 := by
  unfold emitCond; (repeat' split) <;> rfl
@[simp] theorem emitCond_comp2 (c : Cond) (s : State) : (emitCond c s).comp2 = s.comp2 := by
  unfold emitCond; (repeat' split) <;> rfl
@[simp] theorem emitCond_light (c : Cond) (s : State) : (emitCond c s).light = s.light := by
  unfold emitCond; (repeat' split) <;> rfl
@[simp] theorem emitCond_frame (c : Cond) (s : State) : (emitCond c s).frame = s.frame := by
  unfold emitCond; (repeat' split) <;> rfl
@[simp] theorem emitCond_ci (c : Cond) (s : State) : (emitCond c s).ci = s.ci := by
  unfold emitCond; (repeat' split) <;> rfl
@[simp] theorem emitCond_ackstat (c : Cond) (s : State) : (emitCond c s).ackstat = s.ackstat := by
  unfold emitCond; (repeat' split) <;> rfl
@[simp] theorem emitCond_rxbuf (c : Cond) (s : State) : (emitCond c s).rxbuf = s.rxbuf := by
  unfold emitCond; (repeat' split) <;> rfl
@[simp] theorem emitCond_fs (c : Cond) (s : State) : (emitCond c s).fs = s.fs := by
  unfold emitCond; (repeat' split) <;> rfl
@[simp] theorem emitCond_seq (c : Cond) (s : State) : (emitCond c s).seq = s.seq := by
  unfold emitCond; (repeat' split) <;> rfl
@[simp] theorem emitCond_pins (c : Cond) (s : State) : (emitCond c s).pins = s.pins := by
  unfold emitCond; (repeat' split) <;> rfl
@[simp] theorem emitCond_initd (c : Cond) (s : State) : (emitCond c s).initd = s.initd := by
  unfold emitCond; (repeat' split) <;> rfl
@[simp] theorem emitCond_argLatch (c : Cond) (s : State) : (emitCond c s).argLatch = s.argLatch := by
  unfold emitCond; (repeat' split) <;> rfl
@[simp] theorem emitCond_host (c : Cond) (s : State) : (emitCond c s).host = s.host := by
  unfold emitCond; (repeat' split) <;> rfl
@[simp] theorem emitCond_rdata (c : Cond) (s : State) : (emitCond c s).rdata = s.rdata := by
  unfold emitCond; (repeat' split) <;> rfl
@[simp] theorem emitCond_sched (c : Cond) (s : State) : (emitCond c s).sched = s.sched := by
  unfold emitCond; (repeat' split) <;> rfl
@[simp] theorem emitCond_turns (c : Cond) (s : State) : (emitCond c s).turns = s.turns := by
  unfold emitCond; (repeat' split) <;> rfl
@[simp] theorem emitCond_env (c : Cond) (s : State) : (emitCond c s).env = s.env := by
  unfold emitCond; (repeat' split) <;> rfl

/-! ### phyCond writes phy, status, diag, trace, fs and nothing else -/

@[simp] theorem phyCond_ctrl (c : Cond) (s : State) : (phyCond c s).ctrl = s.ctrl := by
  unfold phyCond emitCond; (repeat' split) <;> rfl
@[simp] theorem phyCond_arg (c : Cond) (s : State) : (phyCond c s).arg = s.arg := by
  unfold phyCond emitCond; (repeat' split) <;> rfl
@[simp] theorem phyCond_cmd (c : Cond) (s : State) : (phyCond c s).cmd = s.cmd := by
  unfold phyCond emitCond; (repeat' split) <;> rfl
@[simp] theorem phyCond_res (c : Cond) (s : State) : (phyCond c s).res = s.res := by
  unfold phyCond emitCond; (repeat' split) <;> rfl
@[simp] theorem phyCond_clkHz (c : Cond) (s : State) : (phyCond c s).clkHz = s.clkHz := by
  unfold phyCond emitCond; (repeat' split) <;> rfl
@[simp] theorem phyCond_laddr (c : Cond) (s : State) : (phyCond c s).laddr = s.laddr := by
  unfold phyCond emitCond; (repeat' split) <;> rfl
@[simp] theorem phyCond_cnt (c : Cond) (s : State) : (phyCond c s).cnt = s.cnt := by
  unfold phyCond emitCond; (repeat' split) <;> rfl
@[simp] theorem phyCond_nodeType (c : Cond) (s : State) : (phyCond c s).nodeType = s.nodeType := by
  unfold phyCond emitCond; (repeat' split) <;> rfl
@[simp] theorem phyCond_uid0 (c : Cond) (s : State) : (phyCond c s).uid0 = s.uid0 := by
  unfold phyCond emitCond; (repeat' split) <;> rfl
@[simp] theorem phyCond_uid1 (c : Cond) (s : State) : (phyCond c s).uid1 = s.uid1 := by
  unfold phyCond emitCond; (repeat' split) <;> rfl
@[simp] theorem phyCond_swver (c : Cond) (s : State) : (phyCond c s).swver = s.swver := by
  unfold phyCond emitCond; (repeat' split) <;> rfl
@[simp] theorem phyCond_batt (c : Cond) (s : State) : (phyCond c s).batt = s.batt := by
  unfold phyCond emitCond; (repeat' split) <;> rfl
@[simp] theorem phyCond_temp (c : Cond) (s : State) : (phyCond c s).temp = s.temp := by
  unfold phyCond emitCond; (repeat' split) <;> rfl
@[simp] theorem phyCond_uva (c : Cond) (s : State) : (phyCond c s).uva = s.uva := by
  unfold phyCond emitCond; (repeat' split) <;> rfl
@[simp] theorem phyCond_uvb (c : Cond) (s : State) : (phyCond c s).uvb = s.uvb := by
  unfold phyCond emitCond; (repeat' split) <;> rfl
@[simp] theorem phyCond_comp1 (c : Cond) (s : State) : (phyCond c s).comp1 = s.comp1 := by
  unfold phyCond emitCond; (repeat' split) <;> rfl
@[simp] theorem phyCond_comp2 (c : Cond) (s : State) : (phyCond c s).comp2 = s.comp2 := by
  unfold phyCond emitCond; (repeat' split) <;> rfl
@[simp] theorem phyCond_light (c : Cond) (s : State) : (phyCond c s).light = s.light := by
  unfold phyCond emitCond; (repeat' split) <;> rfl
@[simp] theorem phyCond_frame (c : Cond) (s : State) : (phyCond c s).frame = s.frame := by
  unfold phyCond emitCond; (repeat' split) <;> rfl
@[simp] theorem phyCond_ci (c : Cond) (s : State) : (phyCond c s).ci = s.ci := by
  unfold phyCond emitCond; (repeat' split) <;> rfl
@[simp] theorem phyCond_ackstat (c : Cond) (s : State) : (phyCond c s).ackstat = s.ackstat := by
  unfold phyCond emitCond; (repeat' split) <;> rfl
@[simp] theorem phyCond_rxbuf (c : Cond) (s : State) : (phyCond c s).rxbuf = s.rxbuf := by
  unfold phyCond emitCond; (repeat' split) <;> rfl
@[simp] theorem phyCond_seq (c : Cond) (s : State) : (phyCond c s).seq = s.seq := by
  unfold phyCond emitCond; (repeat' split) <;> rfl
@[simp] theorem phyCond_pins (c : Cond) (s : State) : (phyCond c s).pins = s.pins := by
  unfold phyCond emitCond; (repeat' split) <;> rfl
@[simp] theorem phyCond_initd (c : Cond) (s : State) : (phyCond c s).initd = s.initd := by
  unfold phyCond emitCond; (repeat' split) <;> rfl
@[simp] theorem phyCond_argLatch (c : Cond) (s : State) : (phyCond c s).argLatch = s.argLatch := by
  unfold phyCond emitCond; (repeat' split) <;> rfl
@[simp] theorem phyCond_host (c : Cond) (s : State) : (phyCond c s).host = s.host := by
  unfold phyCond emitCond; (repeat' split) <;> rfl
@[simp] theorem phyCond_rdata (c : Cond) (s : State) : (phyCond c s).rdata = s.rdata := by
  unfold phyCond emitCond; (repeat' split) <;> rfl
@[simp] theorem phyCond_sched (c : Cond) (s : State) : (phyCond c s).sched = s.sched := by
  unfold phyCond emitCond; (repeat' split) <;> rfl
@[simp] theorem phyCond_turns (c : Cond) (s : State) : (phyCond c s).turns = s.turns := by
  unfold phyCond emitCond; (repeat' split) <;> rfl
@[simp] theorem phyCond_env (c : Cond) (s : State) : (phyCond c s).env = s.env := by
  unfold phyCond emitCond; (repeat' split) <;> rfl

/-! ### phyStep writes phy, ackstat, ci, rxbuf, env, trace and nothing else -/

@[simp] theorem phyStep_ctrl (s : State) : (phyStep s).ctrl = s.ctrl := by
  unfold phyStep; (repeat' split) <;> rfl
@[simp] theorem phyStep_status (s : State) : (phyStep s).status = s.status := by
  unfold phyStep; (repeat' split) <;> rfl
@[simp] theorem phyStep_arg (s : State) : (phyStep s).arg = s.arg := by
  unfold phyStep; (repeat' split) <;> rfl
@[simp] theorem phyStep_cmd (s : State) : (phyStep s).cmd = s.cmd := by
  unfold phyStep; (repeat' split) <;> rfl
@[simp] theorem phyStep_res (s : State) : (phyStep s).res = s.res := by
  unfold phyStep; (repeat' split) <;> rfl
@[simp] theorem phyStep_clkHz (s : State) : (phyStep s).clkHz = s.clkHz := by
  unfold phyStep; (repeat' split) <;> rfl
@[simp] theorem phyStep_laddr (s : State) : (phyStep s).laddr = s.laddr := by
  unfold phyStep; (repeat' split) <;> rfl
@[simp] theorem phyStep_cnt (s : State) : (phyStep s).cnt = s.cnt := by
  unfold phyStep; (repeat' split) <;> rfl
@[simp] theorem phyStep_nodeType (s : State) : (phyStep s).nodeType = s.nodeType := by
  unfold phyStep; (repeat' split) <;> rfl
@[simp] theorem phyStep_uid0 (s : State) : (phyStep s).uid0 = s.uid0 := by
  unfold phyStep; (repeat' split) <;> rfl
@[simp] theorem phyStep_uid1 (s : State) : (phyStep s).uid1 = s.uid1 := by
  unfold phyStep; (repeat' split) <;> rfl
@[simp] theorem phyStep_swver (s : State) : (phyStep s).swver = s.swver := by
  unfold phyStep; (repeat' split) <;> rfl
@[simp] theorem phyStep_batt (s : State) : (phyStep s).batt = s.batt := by
  unfold phyStep; (repeat' split) <;> rfl
@[simp] theorem phyStep_temp (s : State) : (phyStep s).temp = s.temp := by
  unfold phyStep; (repeat' split) <;> rfl
@[simp] theorem phyStep_uva (s : State) : (phyStep s).uva = s.uva := by
  unfold phyStep; (repeat' split) <;> rfl
@[simp] theorem phyStep_uvb (s : State) : (phyStep s).uvb = s.uvb := by
  unfold phyStep; (repeat' split) <;> rfl
@[simp] theorem phyStep_comp1 (s : State) : (phyStep s).comp1 = s.comp1 := by
  unfold phyStep; (repeat' split) <;> rfl
@[simp] theorem phyStep_comp2 (s : State) : (phyStep s).comp2 = s.comp2 := by
  unfold phyStep; (repeat' split) <;> rfl
@[simp] theorem phyStep_light (s : State) : (phyStep s).light = s.light := by
  unfold phyStep; (repeat' split) <;> rfl
@[simp] theorem phyStep_diag (s : State) : (phyStep s).diag = s.diag := by
  unfold phyStep; (repeat' split) <;> rfl
@[simp] theorem phyStep_frame (s : State) : (phyStep s).frame = s.frame := by
  unfold phyStep; (repeat' split) <;> rfl
@[simp] theorem phyStep_fs (s : State) : (phyStep s).fs = s.fs := by
  unfold phyStep; (repeat' split) <;> rfl
@[simp] theorem phyStep_seq (s : State) : (phyStep s).seq = s.seq := by
  unfold phyStep; (repeat' split) <;> rfl
@[simp] theorem phyStep_pins (s : State) : (phyStep s).pins = s.pins := by
  unfold phyStep; (repeat' split) <;> rfl
@[simp] theorem phyStep_initd (s : State) : (phyStep s).initd = s.initd := by
  unfold phyStep; (repeat' split) <;> rfl
@[simp] theorem phyStep_argLatch (s : State) : (phyStep s).argLatch = s.argLatch := by
  unfold phyStep; (repeat' split) <;> rfl
@[simp] theorem phyStep_host (s : State) : (phyStep s).host = s.host := by
  unfold phyStep; (repeat' split) <;> rfl
@[simp] theorem phyStep_rdata (s : State) : (phyStep s).rdata = s.rdata := by
  unfold phyStep; (repeat' split) <;> rfl
@[simp] theorem phyStep_sched (s : State) : (phyStep s).sched = s.sched := by
  unfold phyStep; (repeat' split) <;> rfl
@[simp] theorem phyStep_turns (s : State) : (phyStep s).turns = s.turns := by
  unfold phyStep; (repeat' split) <;> rfl

/-! ### pollIdle writes env and nothing else -/

@[simp] theorem pollIdle_ctrl (s : State) : ((pollIdle s).2).ctrl = s.ctrl := by
  unfold pollIdle; (repeat' split) <;> rfl
@[simp] theorem pollIdle_status (s : State) : ((pollIdle s).2).status = s.status := by
  unfold pollIdle; (repeat' split) <;> rfl
@[simp] theorem pollIdle_arg (s : State) : ((pollIdle s).2).arg = s.arg := by
  unfold pollIdle; (repeat' split) <;> rfl
@[simp] theorem pollIdle_cmd (s : State) : ((pollIdle s).2).cmd = s.cmd := by
  unfold pollIdle; (repeat' split) <;> rfl
@[simp] theorem pollIdle_res (s : State) : ((pollIdle s).2).res = s.res := by
  unfold pollIdle; (repeat' split) <;> rfl
@[simp] theorem pollIdle_clkHz (s : State) : ((pollIdle s).2).clkHz = s.clkHz := by
  unfold pollIdle; (repeat' split) <;> rfl
@[simp] theorem pollIdle_laddr (s : State) : ((pollIdle s).2).laddr = s.laddr := by
  unfold pollIdle; (repeat' split) <;> rfl
@[simp] theorem pollIdle_cnt (s : State) : ((pollIdle s).2).cnt = s.cnt := by
  unfold pollIdle; (repeat' split) <;> rfl
@[simp] theorem pollIdle_nodeType (s : State) : ((pollIdle s).2).nodeType = s.nodeType := by
  unfold pollIdle; (repeat' split) <;> rfl
@[simp] theorem pollIdle_uid0 (s : State) : ((pollIdle s).2).uid0 = s.uid0 := by
  unfold pollIdle; (repeat' split) <;> rfl
@[simp] theorem pollIdle_uid1 (s : State) : ((pollIdle s).2).uid1 = s.uid1 := by
  unfold pollIdle; (repeat' split) <;> rfl
@[simp] theorem pollIdle_swver (s : State) : ((pollIdle s).2).swver = s.swver := by
  unfold pollIdle; (repeat' split) <;> rfl
@[simp] theorem pollIdle_batt (s : State) : ((pollIdle s).2).batt = s.batt := by
  unfold pollIdle; (repeat' split) <;> rfl
@[simp] theorem pollIdle_temp (s : State) : ((pollIdle s).2).temp = s.temp := by
  unfold pollIdle; (repeat' split) <;> rfl
@[simp] theorem pollIdle_uva (s : State) : ((pollIdle s).2).uva = s.uva := by
  unfold pollIdle; (repeat' split) <;> rfl
@[simp] theorem pollIdle_uvb (s : State) : ((pollIdle s).2).uvb = s.uvb := by
  unfold pollIdle; (repeat' split) <;> rfl
@[simp] theorem pollIdle_comp1 (s : State) : ((pollIdle s).2).comp1 = s.comp1 := by
  unfold pollIdle; (repeat' split) <;> rfl
@[simp] theorem pollIdle_comp2 (s : State) : ((pollIdle s).2).comp2 = s.comp2 := by
  unfold pollIdle; (repeat' split) <;> rfl
@[simp] theorem pollIdle_light (s : State) : ((pollIdle s).2).light = s.light := by
  unfold pollIdle; (repeat' split) <;> rfl
@[simp] theorem pollIdle_diag (s : State) : ((pollIdle s).2).diag = s.diag := by
  unfold pollIdle; (repeat' split) <;> rfl
@[simp] theorem pollIdle_frame (s : State) : ((pollIdle s).2).frame = s.frame := by
  unfold pollIdle; (repeat' split) <;> rfl
@[simp] theorem pollIdle_phy (s : State) : ((pollIdle s).2).phy = s.phy := by
  unfold pollIdle; (repeat' split) <;> rfl
@[simp] theorem pollIdle_ci (s : State) : ((pollIdle s).2).ci = s.ci := by
  unfold pollIdle; (repeat' split) <;> rfl
@[simp] theorem pollIdle_ackstat (s : State) : ((pollIdle s).2).ackstat = s.ackstat := by
  unfold pollIdle; (repeat' split) <;> rfl
@[simp] theorem pollIdle_rxbuf (s : State) : ((pollIdle s).2).rxbuf = s.rxbuf := by
  unfold pollIdle; (repeat' split) <;> rfl
@[simp] theorem pollIdle_fs (s : State) : ((pollIdle s).2).fs = s.fs := by
  unfold pollIdle; (repeat' split) <;> rfl
@[simp] theorem pollIdle_seq (s : State) : ((pollIdle s).2).seq = s.seq := by
  unfold pollIdle; (repeat' split) <;> rfl
@[simp] theorem pollIdle_pins (s : State) : ((pollIdle s).2).pins = s.pins := by
  unfold pollIdle; (repeat' split) <;> rfl
@[simp] theorem pollIdle_trace (s : State) : ((pollIdle s).2).trace = s.trace := by
  unfold pollIdle; (repeat' split) <;> rfl
@[simp] theorem pollIdle_initd (s : State) : ((pollIdle s).2).initd = s.initd := by
  unfold pollIdle; (repeat' split) <;> rfl
@[simp] theorem pollIdle_argLatch (s : State) : ((pollIdle s).2).argLatch = s.argLatch := by
  unfold pollIdle; (repeat' split) <;> rfl
@[simp] theorem pollIdle_host (s : State) : ((pollIdle s).2).host = s.host := by
  unfold pollIdle; (repeat' split) <;> rfl
@[simp] theorem pollIdle_rdata (s : State) : ((pollIdle s).2).rdata = s.rdata := by
  unfold pollIdle; (repeat' split) <;> rfl
@[simp] theorem pollIdle_sched (s : State) : ((pollIdle s).2).sched = s.sched := by
  unfold pollIdle; (repeat' split) <;> rfl
@[simp] theorem pollIdle_turns (s : State) : ((pollIdle s).2).turns = s.turns := by
  unfold pollIdle; (repeat' split) <;> rfl

/-! ### pollCi writes env and nothing else -/

@[simp] theorem pollCi_ctrl (s : State) : ((pollCi s).2).ctrl = s.ctrl := by
  unfold pollCi; (repeat' split) <;> rfl
@[simp] theorem pollCi_status (s : State) : ((pollCi s).2).status = s.status := by
  unfold pollCi; (repeat' split) <;> rfl
@[simp] theorem pollCi_arg (s : State) : ((pollCi s).2).arg = s.arg := by
  unfold pollCi; (repeat' split) <;> rfl
@[simp] theorem pollCi_cmd (s : State) : ((pollCi s).2).cmd = s.cmd := by
  unfold pollCi; (repeat' split) <;> rfl
@[simp] theorem pollCi_res (s : State) : ((pollCi s).2).res = s.res := by
  unfold pollCi; (repeat' split) <;> rfl
@[simp] theorem pollCi_clkHz (s : State) : ((pollCi s).2).clkHz = s.clkHz := by
  unfold pollCi; (repeat' split) <;> rfl
@[simp] theorem pollCi_laddr (s : State) : ((pollCi s).2).laddr = s.laddr := by
  unfold pollCi; (repeat' split) <;> rfl
@[simp] theorem pollCi_cnt (s : State) : ((pollCi s).2).cnt = s.cnt := by
  unfold pollCi; (repeat' split) <;> rfl
@[simp] theorem pollCi_nodeType (s : State) : ((pollCi s).2).nodeType = s.nodeType := by
  unfold pollCi; (repeat' split) <;> rfl
@[simp] theorem pollCi_uid0 (s : State) : ((pollCi s).2).uid0 = s.uid0 := by
  unfold pollCi; (repeat' split) <;> rfl
@[simp] theorem pollCi_uid1 (s : State) : ((pollCi s).2).uid1 = s.uid1 := by
  unfold pollCi; (repeat' split) <;> rfl
@[simp] theorem pollCi_swver (s : State) : ((pollCi s).2).swver = s.swver := by
  unfold pollCi; (repeat' split) <;> rfl
@[simp] theorem pollCi_batt (s : State) : ((pollCi s).2).batt = s.batt := by
  unfold pollCi; (repeat' split) <;> rfl
@[simp] theorem pollCi_temp (s : State) : ((pollCi s).2).temp = s.temp := by
  unfold pollCi; (repeat' split) <;> rfl
@[simp] theorem pollCi_uva (s : State) : ((pollCi s).2).uva = s.uva := by
  unfold pollCi; (repeat' split) <;> rfl
@[simp] theorem pollCi_uvb (s : State) : ((pollCi s).2).uvb = s.uvb := by
  unfold pollCi; (repeat' split) <;> rfl
@[simp] theorem pollCi_comp1 (s : State) : ((pollCi s).2).comp1 = s.comp1 := by
  unfold pollCi; (repeat' split) <;> rfl
@[simp] theorem pollCi_comp2 (s : State) : ((pollCi s).2).comp2 = s.comp2 := by
  unfold pollCi; (repeat' split) <;> rfl
@[simp] theorem pollCi_light (s : State) : ((pollCi s).2).light = s.light := by
  unfold pollCi; (repeat' split) <;> rfl
@[simp] theorem pollCi_diag (s : State) : ((pollCi s).2).diag = s.diag := by
  unfold pollCi; (repeat' split) <;> rfl
@[simp] theorem pollCi_frame (s : State) : ((pollCi s).2).frame = s.frame := by
  unfold pollCi; (repeat' split) <;> rfl
@[simp] theorem pollCi_phy (s : State) : ((pollCi s).2).phy = s.phy := by
  unfold pollCi; (repeat' split) <;> rfl
@[simp] theorem pollCi_ci (s : State) : ((pollCi s).2).ci = s.ci := by
  unfold pollCi; (repeat' split) <;> rfl
@[simp] theorem pollCi_ackstat (s : State) : ((pollCi s).2).ackstat = s.ackstat := by
  unfold pollCi; (repeat' split) <;> rfl
@[simp] theorem pollCi_rxbuf (s : State) : ((pollCi s).2).rxbuf = s.rxbuf := by
  unfold pollCi; (repeat' split) <;> rfl
@[simp] theorem pollCi_fs (s : State) : ((pollCi s).2).fs = s.fs := by
  unfold pollCi; (repeat' split) <;> rfl
@[simp] theorem pollCi_seq (s : State) : ((pollCi s).2).seq = s.seq := by
  unfold pollCi; (repeat' split) <;> rfl
@[simp] theorem pollCi_pins (s : State) : ((pollCi s).2).pins = s.pins := by
  unfold pollCi; (repeat' split) <;> rfl
@[simp] theorem pollCi_trace (s : State) : ((pollCi s).2).trace = s.trace := by
  unfold pollCi; (repeat' split) <;> rfl
@[simp] theorem pollCi_initd (s : State) : ((pollCi s).2).initd = s.initd := by
  unfold pollCi; (repeat' split) <;> rfl
@[simp] theorem pollCi_argLatch (s : State) : ((pollCi s).2).argLatch = s.argLatch := by
  unfold pollCi; (repeat' split) <;> rfl
@[simp] theorem pollCi_host (s : State) : ((pollCi s).2).host = s.host := by
  unfold pollCi; (repeat' split) <;> rfl
@[simp] theorem pollCi_rdata (s : State) : ((pollCi s).2).rdata = s.rdata := by
  unfold pollCi; (repeat' split) <;> rfl
@[simp] theorem pollCi_sched (s : State) : ((pollCi s).2).sched = s.sched := by
  unfold pollCi; (repeat' split) <;> rfl
@[simp] theorem pollCi_turns (s : State) : ((pollCi s).2).turns = s.turns := by
  unfold pollCi; (repeat' split) <;> rfl

/-! ### obsAck writes env and nothing else -/

@[simp] theorem obsAck_ctrl (s : State) : ((obsAck s).2).ctrl = s.ctrl := by
  unfold obsAck; (repeat' split) <;> rfl
@[simp] theorem obsAck_status (s : State) : ((obsAck s).2).status = s.status := by
  unfold obsAck; (repeat' split) <;> rfl
@[simp] theorem obsAck_arg (s : State) : ((obsAck s).2).arg = s.arg := by
  unfold obsAck; (repeat' split) <;> rfl
@[simp] theorem obsAck_cmd (s : State) : ((obsAck s).2).cmd = s.cmd := by
  unfold obsAck; (repeat' split) <;> rfl
@[simp] theorem obsAck_res (s : State) : ((obsAck s).2).res = s.res := by
  unfold obsAck; (repeat' split) <;> rfl
@[simp] theorem obsAck_clkHz (s : State) : ((obsAck s).2).clkHz = s.clkHz := by
  unfold obsAck; (repeat' split) <;> rfl
@[simp] theorem obsAck_laddr (s : State) : ((obsAck s).2).laddr = s.laddr := by
  unfold obsAck; (repeat' split) <;> rfl
@[simp] theorem obsAck_cnt (s : State) : ((obsAck s).2).cnt = s.cnt := by
  unfold obsAck; (repeat' split) <;> rfl
@[simp] theorem obsAck_nodeType (s : State) : ((obsAck s).2).nodeType = s.nodeType := by
  unfold obsAck; (repeat' split) <;> rfl
@[simp] theorem obsAck_uid0 (s : State) : ((obsAck s).2).uid0 = s.uid0 := by
  unfold obsAck; (repeat' split) <;> rfl
@[simp] theorem obsAck_uid1 (s : State) : ((obsAck s).2).uid1 = s.uid1 := by
  unfold obsAck; (repeat' split) <;> rfl
@[simp] theorem obsAck_swver (s : State) : ((obsAck s).2).swver = s.swver := by
  unfold obsAck; (repeat' split) <;> rfl
@[simp] theorem obsAck_batt (s : State) : ((obsAck s).2).batt = s.batt := by
  unfold obsAck; (repeat' split) <;> rfl
@[simp] theorem obsAck_temp (s : State) : ((obsAck s).2).temp = s.temp := by
  unfold obsAck; (repeat' split) <;> rfl
@[simp] theorem obsAck_uva (s : State) : ((obsAck s).2).uva = s.uva := by
  unfold obsAck; (repeat' split) <;> rfl
@[simp] theorem obsAck_uvb (s : State) : ((obsAck s).2).uvb = s.uvb := by
  unfold obsAck; (repeat' split) <;> rfl
@[simp] theorem obsAck_comp1 (s : State) : ((obsAck s).2).comp1 = s.comp1 := by
  unfold obsAck; (repeat' split) <;> rfl
@[simp] theorem obsAck_comp2 (s : State) : ((obsAck s).2).comp2 = s.comp2 := by
  unfold obsAck; (repeat' split) <;> rfl
@[simp] theorem obsAck_light (s : State) : ((obsAck s).2).light = s.light := by
  unfold obsAck; (repeat' split) <;> rfl
@[simp] theorem obsAck_diag (s : State) : ((obsAck s).2).diag = s.diag := by
  unfold obsAck; (repeat' split) <;> rfl
@[simp] theorem obsAck_frame (s : State) : ((obsAck s).2).frame = s.frame := by
  unfold obsAck; (repeat' split) <;> rfl
@[simp] theorem obsAck_phy (s : State) : ((obsAck s).2).phy = s.phy := by
  unfold obsAck; (repeat' split) <;> rfl
@[simp] theorem obsAck_ci (s : State) : ((obsAck s).2).ci = s.ci := by
  unfold obsAck; (repeat' split) <;> rfl
@[simp] theorem obsAck_ackstat (s : State) : ((obsAck s).2).ackstat = s.ackstat := by
  unfold obsAck; (repeat' split) <;> rfl
@[simp] theorem obsAck_rxbuf (s : State) : ((obsAck s).2).rxbuf = s.rxbuf := by
  unfold obsAck; (repeat' split) <;> rfl
@[simp] theorem obsAck_fs (s : State) : ((obsAck s).2).fs = s.fs := by
  unfold obsAck; (repeat' split) <;> rfl
@[simp] theorem obsAck_seq (s : State) : ((obsAck s).2).seq = s.seq := by
  unfold obsAck; (repeat' split) <;> rfl
@[simp] theorem obsAck_pins (s : State) : ((obsAck s).2).pins = s.pins := by
  unfold obsAck; (repeat' split) <;> rfl
@[simp] theorem obsAck_trace (s : State) : ((obsAck s).2).trace = s.trace := by
  unfold obsAck; (repeat' split) <;> rfl
@[simp] theorem obsAck_initd (s : State) : ((obsAck s).2).initd = s.initd := by
  unfold obsAck; (repeat' split) <;> rfl
@[simp] theorem obsAck_argLatch (s : State) : ((obsAck s).2).argLatch = s.argLatch := by
  unfold obsAck; (repeat' split) <;> rfl
@[simp] theorem obsAck_host (s : State) : ((obsAck s).2).host = s.host := by
  unfold obsAck; (repeat' split) <;> rfl
@[simp] theorem obsAck_rdata (s : State) : ((obsAck s).2).rdata = s.rdata := by
  unfold obsAck; (repeat' split) <;> rfl
@[simp] theorem obsAck_sched (s : State) : ((obsAck s).2).sched = s.sched := by
  unfold obsAck; (repeat' split) <;> rfl
@[simp] theorem obsAck_turns (s : State) : ((obsAck s).2).turns = s.turns := by
  unfold obsAck; (repeat' split) <;> rfl

/-! ### obsRx writes env and nothing else -/

@[simp] theorem obsRx_ctrl (s : State) : ((obsRx s).2).ctrl = s.ctrl := by
  unfold obsRx; (repeat' split) <;> rfl
@[simp] theorem obsRx_status (s : State) : ((obsRx s).2).status = s.status := by
  unfold obsRx; (repeat' split) <;> rfl
@[simp] theorem obsRx_arg (s : State) : ((obsRx s).2).arg = s.arg := by
  unfold obsRx; (repeat' split) <;> rfl
@[simp] theorem obsRx_cmd (s : State) : ((obsRx s).2).cmd = s.cmd := by
  unfold obsRx; (repeat' split) <;> rfl
@[simp] theorem obsRx_res (s : State) : ((obsRx s).2).res = s.res := by
  unfold obsRx; (repeat' split) <;> rfl
@[simp] theorem obsRx_clkHz (s : State) : ((obsRx s).2).clkHz = s.clkHz := by
  unfold obsRx; (repeat' split) <;> rfl
@[simp] theorem obsRx_laddr (s : State) : ((obsRx s).2).laddr = s.laddr := by
  unfold obsRx; (repeat' split) <;> rfl
@[simp] theorem obsRx_cnt (s : State) : ((obsRx s).2).cnt = s.cnt := by
  unfold obsRx; (repeat' split) <;> rfl
@[simp] theorem obsRx_nodeType (s : State) : ((obsRx s).2).nodeType = s.nodeType := by
  unfold obsRx; (repeat' split) <;> rfl
@[simp] theorem obsRx_uid0 (s : State) : ((obsRx s).2).uid0 = s.uid0 := by
  unfold obsRx; (repeat' split) <;> rfl
@[simp] theorem obsRx_uid1 (s : State) : ((obsRx s).2).uid1 = s.uid1 := by
  unfold obsRx; (repeat' split) <;> rfl
@[simp] theorem obsRx_swver (s : State) : ((obsRx s).2).swver = s.swver := by
  unfold obsRx; (repeat' split) <;> rfl
@[simp] theorem obsRx_batt (s : State) : ((obsRx s).2).batt = s.batt := by
  unfold obsRx; (repeat' split) <;> rfl
@[simp] theorem obsRx_temp (s : State) : ((obsRx s).2).temp = s.temp := by
  unfold obsRx; (repeat' split) <;> rfl
@[simp] theorem obsRx_uva (s : State) : ((obsRx s).2).uva = s.uva := by
  unfold obsRx; (repeat' split) <;> rfl
@[simp] theorem obsRx_uvb (s : State) : ((obsRx s).2).uvb = s.uvb := by
  unfold obsRx; (repeat' split) <;> rfl
@[simp] theorem obsRx_comp1 (s : State) : ((obsRx s).2).comp1 = s.comp1 := by
  unfold obsRx; (repeat' split) <;> rfl
@[simp] theorem obsRx_comp2 (s : State) : ((obsRx s).2).comp2 = s.comp2 := by
  unfold obsRx; (repeat' split) <;> rfl
@[simp] theorem obsRx_light (s : State) : ((obsRx s).2).light = s.light := by
  unfold obsRx; (repeat' split) <;> rfl
@[simp] theorem obsRx_diag (s : State) : ((obsRx s).2).diag = s.diag := by
  unfold obsRx; (repeat' split) <;> rfl
@[simp] theorem obsRx_frame (s : State) : ((obsRx s).2).frame = s.frame := by
  unfold obsRx; (repeat' split) <;> rfl
@[simp] theorem obsRx_phy (s : State) : ((obsRx s).2).phy = s.phy := by
  unfold obsRx; (repeat' split) <;> rfl
@[simp] theorem obsRx_ci (s : State) : ((obsRx s).2).ci = s.ci := by
  unfold obsRx; (repeat' split) <;> rfl
@[simp] theorem obsRx_ackstat (s : State) : ((obsRx s).2).ackstat = s.ackstat := by
  unfold obsRx; (repeat' split) <;> rfl
@[simp] theorem obsRx_rxbuf (s : State) : ((obsRx s).2).rxbuf = s.rxbuf := by
  unfold obsRx; (repeat' split) <;> rfl
@[simp] theorem obsRx_fs (s : State) : ((obsRx s).2).fs = s.fs := by
  unfold obsRx; (repeat' split) <;> rfl
@[simp] theorem obsRx_seq (s : State) : ((obsRx s).2).seq = s.seq := by
  unfold obsRx; (repeat' split) <;> rfl
@[simp] theorem obsRx_pins (s : State) : ((obsRx s).2).pins = s.pins := by
  unfold obsRx; (repeat' split) <;> rfl
@[simp] theorem obsRx_trace (s : State) : ((obsRx s).2).trace = s.trace := by
  unfold obsRx; (repeat' split) <;> rfl
@[simp] theorem obsRx_initd (s : State) : ((obsRx s).2).initd = s.initd := by
  unfold obsRx; (repeat' split) <;> rfl
@[simp] theorem obsRx_argLatch (s : State) : ((obsRx s).2).argLatch = s.argLatch := by
  unfold obsRx; (repeat' split) <;> rfl
@[simp] theorem obsRx_host (s : State) : ((obsRx s).2).host = s.host := by
  unfold obsRx; (repeat' split) <;> rfl
@[simp] theorem obsRx_rdata (s : State) : ((obsRx s).2).rdata = s.rdata := by
  unfold obsRx; (repeat' split) <;> rfl
@[simp] theorem obsRx_sched (s : State) : ((obsRx s).2).sched = s.sched := by
  unfold obsRx; (repeat' split) <;> rfl
@[simp] theorem obsRx_turns (s : State) : ((obsRx s).2).turns = s.turns := by
  unfold obsRx; (repeat' split) <;> rfl

/-! ### captureAck writes status, diag, res, env and nothing else -/

@[simp] theorem captureAck_ctrl (b : Bool) (s : State) : (captureAck b s).ctrl = s.ctrl := by
  unfold captureAck obsAck; (repeat' split) <;> rfl
@[simp] theorem captureAck_arg (b : Bool) (s : State) : (captureAck b s).arg = s.arg := by
  unfold captureAck obsAck; (repeat' split) <;> rfl
@[simp] theorem captureAck_cmd (b : Bool) (s : State) : (captureAck b s).cmd = s.cmd := by
  unfold captureAck obsAck; (repeat' split) <;> rfl
@[simp] theorem captureAck_clkHz (b : Bool) (s : State) : (captureAck b s).clkHz = s.clkHz := by
  unfold captureAck obsAck; (repeat' split) <;> rfl
@[simp] theorem captureAck_laddr (b : Bool) (s : State) : (captureAck b s).laddr = s.laddr := by
  unfold captureAck obsAck; (repeat' split) <;> rfl
@[simp] theorem captureAck_cnt (b : Bool) (s : State) : (captureAck b s).cnt = s.cnt := by
  unfold captureAck obsAck; (repeat' split) <;> rfl
@[simp] theorem captureAck_nodeType (b : Bool) (s : State) : (captureAck b s).nodeType = s.nodeType := by
  unfold captureAck obsAck; (repeat' split) <;> rfl
@[simp] theorem captureAck_uid0 (b : Bool) (s : State) : (captureAck b s).uid0 = s.uid0 := by
  unfold captureAck obsAck; (repeat' split) <;> rfl
@[simp] theorem captureAck_uid1 (b : Bool) (s : State) : (captureAck b s).uid1 = s.uid1 := by
  unfold captureAck obsAck; (repeat' split) <;> rfl
@[simp] theorem captureAck_swver (b : Bool) (s : State) : (captureAck b s).swver = s.swver := by
  unfold captureAck obsAck; (repeat' split) <;> rfl
@[simp] theorem captureAck_batt (b : Bool) (s : State) : (captureAck b s).batt = s.batt := by
  unfold captureAck obsAck; (repeat' split) <;> rfl
@[simp] theorem captureAck_temp (b : Bool) (s : State) : (captureAck b s).temp = s.temp := by
  unfold captureAck obsAck; (repeat' split) <;> rfl
@[simp] theorem captureAck_uva (b : Bool) (s : State) : (captureAck b s).uva = s.uva := by
  unfold captureAck obsAck; (repeat' split) <;> rfl
@[simp] theorem captureAck_uvb (b : Bool) (s : State) : (captureAck b s).uvb = s.uvb := by
  unfold captureAck obsAck; (repeat' split) <;> rfl
@[simp] theorem captureAck_comp1 (b : Bool) (s : State) : (captureAck b s).comp1 = s.comp1 := by
  unfold captureAck obsAck; (repeat' split) <;> rfl
@[simp] theorem captureAck_comp2 (b : Bool) (s : State) : (captureAck b s).comp2 = s.comp2 := by
  unfold captureAck obsAck; (repeat' split) <;> rfl
@[simp] theorem captureAck_light (b : Bool) (s : State) : (captureAck b s).light = s.light := by
  unfold captureAck obsAck; (repeat' split) <;> rfl
@[simp] theorem captureAck_frame (b : Bool) (s : State) : (captureAck b s).frame = s.frame := by
  unfold captureAck obsAck; (repeat' split) <;> rfl
@[simp] theorem captureAck_phy (b : Bool) (s : State) : (captureAck b s).phy = s.phy := by
  unfold captureAck obsAck; (repeat' split) <;> rfl
@[simp] theorem captureAck_ci (b : Bool) (s : State) : (captureAck b s).ci = s.ci := by
  unfold captureAck obsAck; (repeat' split) <;> rfl
@[simp] theorem captureAck_ackstat (b : Bool) (s : State) : (captureAck b s).ackstat = s.ackstat := by
  unfold captureAck obsAck; (repeat' split) <;> rfl
@[simp] theorem captureAck_rxbuf (b : Bool) (s : State) : (captureAck b s).rxbuf = s.rxbuf := by
  unfold captureAck obsAck; (repeat' split) <;> rfl
@[simp] theorem captureAck_fs (b : Bool) (s : State) : (captureAck b s).fs = s.fs := by
  unfold captureAck obsAck; (repeat' split) <;> rfl
@[simp] theorem captureAck_seq (b : Bool) (s : State) : (captureAck b s).seq = s.seq := by
  unfold captureAck obsAck; (repeat' split) <;> rfl
@[simp] theorem captureAck_pins (b : Bool) (s : State) : (captureAck b s).pins = s.pins := by
  unfold captureAck obsAck; (repeat' split) <;> rfl
@[simp] theorem captureAck_trace (b : Bool) (s : State) : (captureAck b s).trace = s.trace := by
  unfold captureAck obsAck; (repeat' split) <;> rfl
@[simp] theorem captureAck_initd (b : Bool) (s : State) : (captureAck b s).initd = s.initd := by
  unfold captureAck obsAck; (repeat' split) <;> rfl
@[simp] theorem captureAck_argLatch (b : Bool) (s : State) : (captureAck b s).argLatch = s.argLatch := by
  unfold captureAck obsAck; (repeat' split) <;> rfl
@[simp] theorem captureAck_host (b : Bool) (s : State) : (captureAck b s).host = s.host := by
  unfold captureAck obsAck; (repeat' split) <;> rfl
@[simp] theorem captureAck_rdata (b : Bool) (s : State) : (captureAck b s).rdata = s.rdata := by
  unfold captureAck obsAck; (repeat' split) <;> rfl
@[simp] theorem captureAck_sched (b : Bool) (s : State) : (captureAck b s).sched = s.sched := by
  unfold captureAck obsAck; (repeat' split) <;> rfl
@[simp] theorem captureAck_turns (b : Bool) (s : State) : (captureAck b s).turns = s.turns := by
  unfold captureAck obsAck; (repeat' split) <;> rfl

/-! ### takeScl writes phy, status, diag, trace, pins and nothing else -/

@[simp] theorem takeScl_ctrl (s : State) : (takeScl s).ctrl = s.ctrl := by
  unfold takeScl; dsimp only; split <;> rfl
@[simp] theorem takeScl_arg (s : State) : (takeScl s).arg = s.arg := by
  unfold takeScl; dsimp only; split <;> rfl
@[simp] theorem takeScl_cmd (s : State) : (takeScl s).cmd = s.cmd := by
  unfold takeScl; dsimp only; split <;> rfl
@[simp] theorem takeScl_res (s : State) : (takeScl s).res = s.res := by
  unfold takeScl; dsimp only; split <;> rfl
@[simp] theorem takeScl_clkHz (s : State) : (takeScl s).clkHz = s.clkHz := by
  unfold takeScl; dsimp only; split <;> rfl
@[simp] theorem takeScl_laddr (s : State) : (takeScl s).laddr = s.laddr := by
  unfold takeScl; dsimp only; split <;> rfl
@[simp] theorem takeScl_cnt (s : State) : (takeScl s).cnt = s.cnt := by
  unfold takeScl; dsimp only; split <;> rfl
@[simp] theorem takeScl_nodeType (s : State) : (takeScl s).nodeType = s.nodeType := by
  unfold takeScl; dsimp only; split <;> rfl
@[simp] theorem takeScl_uid0 (s : State) : (takeScl s).uid0 = s.uid0 := by
  unfold takeScl; dsimp only; split <;> rfl
@[simp] theorem takeScl_uid1 (s : State) : (takeScl s).uid1 = s.uid1 := by
  unfold takeScl; dsimp only; split <;> rfl
@[simp] theorem takeScl_swver (s : State) : (takeScl s).swver = s.swver := by
  unfold takeScl; dsimp only; split <;> rfl
@[simp] theorem takeScl_batt (s : State) : (takeScl s).batt = s.batt := by
  unfold takeScl; dsimp only; split <;> rfl
@[simp] theorem takeScl_temp (s : State) : (takeScl s).temp = s.temp := by
  unfold takeScl; dsimp only; split <;> rfl
@[simp] theorem takeScl_uva (s : State) : (takeScl s).uva = s.uva := by
  unfold takeScl; dsimp only; split <;> rfl
@[simp] theorem takeScl_uvb (s : State) : (takeScl s).uvb = s.uvb := by
  unfold takeScl; dsimp only; split <;> rfl
@[simp] theorem takeScl_comp1 (s : State) : (takeScl s).comp1 = s.comp1 := by
  unfold takeScl; dsimp only; split <;> rfl
@[simp] theorem takeScl_comp2 (s : State) : (takeScl s).comp2 = s.comp2 := by
  unfold takeScl; dsimp only; split <;> rfl
@[simp] theorem takeScl_light (s : State) : (takeScl s).light = s.light := by
  unfold takeScl; dsimp only; split <;> rfl
@[simp] theorem takeScl_frame (s : State) : (takeScl s).frame = s.frame := by
  unfold takeScl; dsimp only; split <;> rfl
@[simp] theorem takeScl_ci (s : State) : (takeScl s).ci = s.ci := by
  unfold takeScl; dsimp only; split <;> rfl
@[simp] theorem takeScl_ackstat (s : State) : (takeScl s).ackstat = s.ackstat := by
  unfold takeScl; dsimp only; split <;> rfl
@[simp] theorem takeScl_rxbuf (s : State) : (takeScl s).rxbuf = s.rxbuf := by
  unfold takeScl; dsimp only; split <;> rfl
@[simp] theorem takeScl_fs (s : State) : (takeScl s).fs = s.fs := by
  unfold takeScl; dsimp only; split <;> rfl
@[simp] theorem takeScl_seq (s : State) : (takeScl s).seq = s.seq := by
  unfold takeScl; dsimp only; split <;> rfl
@[simp] theorem takeScl_initd (s : State) : (takeScl s).initd = s.initd := by
  unfold takeScl; dsimp only; split <;> rfl
@[simp] theorem takeScl_argLatch (s : State) : (takeScl s).argLatch = s.argLatch := by
  unfold takeScl; dsimp only; split <;> rfl
@[simp] theorem takeScl_host (s : State) : (takeScl s).host = s.host := by
  unfold takeScl; dsimp only; split <;> rfl
@[simp] theorem takeScl_rdata (s : State) : (takeScl s).rdata = s.rdata := by
  unfold takeScl; dsimp only; split <;> rfl
@[simp] theorem takeScl_sched (s : State) : (takeScl s).sched = s.sched := by
  unfold takeScl; dsimp only; split <;> rfl
@[simp] theorem takeScl_turns (s : State) : (takeScl s).turns = s.turns := by
  unfold takeScl; dsimp only; split <;> rfl
@[simp] theorem takeScl_env (s : State) : (takeScl s).env = s.env := by
  unfold takeScl; dsimp only; split <;> rfl

/-! ### finishRecovery writes status, diag, trace, fs and nothing else -/

@[simp] theorem finishRecovery_ctrl (s1 : Bool) (s : State) : (finishRecovery s1 s).ctrl = s.ctrl := by
  unfold finishRecovery; dsimp only; split <;> rfl
@[simp] theorem finishRecovery_arg (s1 : Bool) (s : State) : (finishRecovery s1 s).arg = s.arg := by
  unfold finishRecovery; dsimp only; split <;> rfl
@[simp] theorem finishRecovery_cmd (s1 : Bool) (s : State) : (finishRecovery s1 s).cmd = s.cmd := by
  unfold finishRecovery; dsimp only; split <;> rfl
@[simp] theorem finishRecovery_res (s1 : Bool) (s : State) : (finishRecovery s1 s).res = s.res := by
  unfold finishRecovery; dsimp only; split <;> rfl
@[simp] theorem finishRecovery_clkHz (s1 : Bool) (s : State) : (finishRecovery s1 s).clkHz = s.clkHz := by
  unfold finishRecovery; dsimp only; split <;> rfl
@[simp] theorem finishRecovery_laddr (s1 : Bool) (s : State) : (finishRecovery s1 s).laddr = s.laddr := by
  unfold finishRecovery; dsimp only; split <;> rfl
@[simp] theorem finishRecovery_cnt (s1 : Bool) (s : State) : (finishRecovery s1 s).cnt = s.cnt := by
  unfold finishRecovery; dsimp only; split <;> rfl
@[simp] theorem finishRecovery_nodeType (s1 : Bool) (s : State) : (finishRecovery s1 s).nodeType = s.nodeType := by
  unfold finishRecovery; dsimp only; split <;> rfl
@[simp] theorem finishRecovery_uid0 (s1 : Bool) (s : State) : (finishRecovery s1 s).uid0 = s.uid0 := by
  unfold finishRecovery; dsimp only; split <;> rfl
@[simp] theorem finishRecovery_uid1 (s1 : Bool) (s : State) : (finishRecovery s1 s).uid1 = s.uid1 := by
  unfold finishRecovery; dsimp only; split <;> rfl
@[simp] theorem finishRecovery_swver (s1 : Bool) (s : State) : (finishRecovery s1 s).swver = s.swver := by
  unfold finishRecovery; dsimp only; split <;> rfl
@[simp] theorem finishRecovery_batt (s1 : Bool) (s : State) : (finishRecovery s1 s).batt = s.batt := by
  unfold finishRecovery; dsimp only; split <;> rfl
@[simp] theorem finishRecovery_temp (s1 : Bool) (s : State) : (finishRecovery s1 s).temp = s.temp := by
  unfold finishRecovery; dsimp only; split <;> rfl
@[simp] theorem finishRecovery_uva (s1 : Bool) (s : State) : (finishRecovery s1 s).uva = s.uva := by
  unfold finishRecovery; dsimp only; split <;> rfl
@[simp] theorem finishRecovery_uvb (s1 : Bool) (s : State) : (finishRecovery s1 s).uvb = s.uvb := by
  unfold finishRecovery; dsimp only; split <;> rfl
@[simp] theorem finishRecovery_comp1 (s1 : Bool) (s : State) : (finishRecovery s1 s).comp1 = s.comp1 := by
  unfold finishRecovery; dsimp only; split <;> rfl
@[simp] theorem finishRecovery_comp2 (s1 : Bool) (s : State) : (finishRecovery s1 s).comp2 = s.comp2 := by
  unfold finishRecovery; dsimp only; split <;> rfl
@[simp] theorem finishRecovery_light (s1 : Bool) (s : State) : (finishRecovery s1 s).light = s.light := by
  unfold finishRecovery; dsimp only; split <;> rfl
@[simp] theorem finishRecovery_frame (s1 : Bool) (s : State) : (finishRecovery s1 s).frame = s.frame := by
  unfold finishRecovery; dsimp only; split <;> rfl
@[simp] theorem finishRecovery_phy (s1 : Bool) (s : State) : (finishRecovery s1 s).phy = s.phy := by
  unfold finishRecovery; dsimp only; split <;> rfl
@[simp] theorem finishRecovery_ci (s1 : Bool) (s : State) : (finishRecovery s1 s).ci = s.ci := by
  unfold finishRecovery; dsimp only; split <;> rfl
@[simp] theorem finishRecovery_ackstat (s1 : Bool) (s : State) : (finishRecovery s1 s).ackstat = s.ackstat := by
  unfold finishRecovery; dsimp only; split <;> rfl
@[simp] theorem finishRecovery_rxbuf (s1 : Bool) (s : State) : (finishRecovery s1 s).rxbuf = s.rxbuf := by
  unfold finishRecovery; dsimp only; split <;> rfl
@[simp] theorem finishRecovery_seq (s1 : Bool) (s : State) : (finishRecovery s1 s).seq = s.seq := by
  unfold finishRecovery; dsimp only; split <;> rfl
@[simp] theorem finishRecovery_pins (s1 : Bool) (s : State) : (finishRecovery s1 s).pins = s.pins := by
  unfold finishRecovery; dsimp only; split <;> rfl
@[simp] theorem finishRecovery_initd (s1 : Bool) (s : State) : (finishRecovery s1 s).initd = s.initd := by
  unfold finishRecovery; dsimp only; split <;> rfl
@[simp] theorem finishRecovery_argLatch (s1 : Bool) (s : State) : (finishRecovery s1 s).argLatch = s.argLatch := by
  unfold finishRecovery; dsimp only; split <;> rfl
@[simp] theorem finishRecovery_host (s1 : Bool) (s : State) : (finishRecovery s1 s).host = s.host := by
  unfold finishRecovery; dsimp only; split <;> rfl
@[simp] theorem finishRecovery_rdata (s1 : Bool) (s : State) : (finishRecovery s1 s).rdata = s.rdata := by
  unfold finishRecovery; dsimp only; split <;> rfl
@[simp] theorem finishRecovery_sched (s1 : Bool) (s : State) : (finishRecovery s1 s).sched = s.sched := by
  unfold finishRecovery; dsimp only; split <;> rfl
@[simp] theorem finishRecovery_turns (s1 : Bool) (s : State) : (finishRecovery s1 s).turns = s.turns := by
  unfold finishRecovery; dsimp only; split <;> rfl
@[simp] theorem finishRecovery_env (s1 : Bool) (s : State) : (finishRecovery s1 s).env = s.env := by
  unfold finishRecovery; dsimp only; split <;> rfl

/-! ### uvValEffect writes res, uva, uvb, comp1, comp2 and nothing else -/

@[simp] theorem uvValEffect_ctrl (dst : Option UvReg) (r : Run) (s : State) : (uvValEffect dst r s).ctrl = s.ctrl := by
  unfold uvValEffect; dsimp only; split <;> rfl
@[simp] theorem uvValEffect_status (dst : Option UvReg) (r : Run) (s : State) : (uvValEffect dst r s).status = s.status := by
  unfold uvValEffect; dsimp only; split <;> rfl
@[simp] theorem uvValEffect_arg (dst : Option UvReg) (r : Run) (s : State) : (uvValEffect dst r s).arg = s.arg := by
  unfold uvValEffect; dsimp only; split <;> rfl
@[simp] theorem uvValEffect_cmd (dst : Option UvReg) (r : Run) (s : State) : (uvValEffect dst r s).cmd = s.cmd := by
  unfold uvValEffect; dsimp only; split <;> rfl
@[simp] theorem uvValEffect_clkHz (dst : Option UvReg) (r : Run) (s : State) : (uvValEffect dst r s).clkHz = s.clkHz := by
  unfold uvValEffect; dsimp only; split <;> rfl
@[simp] theorem uvValEffect_laddr (dst : Option UvReg) (r : Run) (s : State) : (uvValEffect dst r s).laddr = s.laddr := by
  unfold uvValEffect; dsimp only; split <;> rfl
@[simp] theorem uvValEffect_cnt (dst : Option UvReg) (r : Run) (s : State) : (uvValEffect dst r s).cnt = s.cnt := by
  unfold uvValEffect; dsimp only; split <;> rfl
@[simp] theorem uvValEffect_nodeType (dst : Option UvReg) (r : Run) (s : State) : (uvValEffect dst r s).nodeType = s.nodeType := by
  unfold uvValEffect; dsimp only; split <;> rfl
@[simp] theorem uvValEffect_uid0 (dst : Option UvReg) (r : Run) (s : State) : (uvValEffect dst r s).uid0 = s.uid0 := by
  unfold uvValEffect; dsimp only; split <;> rfl
@[simp] theorem uvValEffect_uid1 (dst : Option UvReg) (r : Run) (s : State) : (uvValEffect dst r s).uid1 = s.uid1 := by
  unfold uvValEffect; dsimp only; split <;> rfl
@[simp] theorem uvValEffect_swver (dst : Option UvReg) (r : Run) (s : State) : (uvValEffect dst r s).swver = s.swver := by
  unfold uvValEffect; dsimp only; split <;> rfl
@[simp] theorem uvValEffect_batt (dst : Option UvReg) (r : Run) (s : State) : (uvValEffect dst r s).batt = s.batt := by
  unfold uvValEffect; dsimp only; split <;> rfl
@[simp] theorem uvValEffect_temp (dst : Option UvReg) (r : Run) (s : State) : (uvValEffect dst r s).temp = s.temp := by
  unfold uvValEffect; dsimp only; split <;> rfl
@[simp] theorem uvValEffect_light (dst : Option UvReg) (r : Run) (s : State) : (uvValEffect dst r s).light = s.light := by
  unfold uvValEffect; dsimp only; split <;> rfl
@[simp] theorem uvValEffect_diag (dst : Option UvReg) (r : Run) (s : State) : (uvValEffect dst r s).diag = s.diag := by
  unfold uvValEffect; dsimp only; split <;> rfl
@[simp] theorem uvValEffect_frame (dst : Option UvReg) (r : Run) (s : State) : (uvValEffect dst r s).frame = s.frame := by
  unfold uvValEffect; dsimp only; split <;> rfl
@[simp] theorem uvValEffect_phy (dst : Option UvReg) (r : Run) (s : State) : (uvValEffect dst r s).phy = s.phy := by
  unfold uvValEffect; dsimp only; split <;> rfl
@[simp] theorem uvValEffect_ci (dst : Option UvReg) (r : Run) (s : State) : (uvValEffect dst r s).ci = s.ci := by
  unfold uvValEffect; dsimp only; split <;> rfl
@[simp] theorem uvValEffect_ackstat (dst : Option UvReg) (r : Run) (s : State) : (uvValEffect dst r s).ackstat = s.ackstat := by
  unfold uvValEffect; dsimp only; split <;> rfl
@[simp] theorem uvValEffect_rxbuf (dst : Option UvReg) (r : Run) (s : State) : (uvValEffect dst r s).rxbuf = s.rxbuf := by
  unfold uvValEffect; dsimp only; split <;> rfl
@[simp] theorem uvValEffect_fs (dst : Option UvReg) (r : Run) (s : State) : (uvValEffect dst r s).fs = s.fs := by
  unfold uvValEffect; dsimp only; split <;> rfl
@[simp] theorem uvValEffect_seq (dst : Option UvReg) (r : Run) (s : State) : (uvValEffect dst r s).seq = s.seq := by
  unfold uvValEffect; dsimp only; split <;> rfl
@[simp] theorem uvValEffect_pins (dst : Option UvReg) (r : Run) (s : State) : (uvValEffect dst r s).pins = s.pins := by
  unfold uvValEffect; dsimp only; split <;> rfl
@[simp] theorem uvValEffect_trace (dst : Option UvReg) (r : Run) (s : State) : (uvValEffect dst r s).trace = s.trace := by
  unfold uvValEffect; dsimp only; split <;> rfl
@[simp] theorem uvValEffect_initd (dst : Option UvReg) (r : Run) (s : State) : (uvValEffect dst r s).initd = s.initd := by
  unfold uvValEffect; dsimp only; split <;> rfl
@[simp] theorem uvValEffect_argLatch (dst : Option UvReg) (r : Run) (s : State) : (uvValEffect dst r s).argLatch = s.argLatch := by
  unfold uvValEffect; dsimp only; split <;> rfl
@[simp] theorem uvValEffect_host (dst : Option UvReg) (r : Run) (s : State) : (uvValEffect dst r s).host = s.host := by
  unfold uvValEffect; dsimp only; split <;> rfl
@[simp] theorem uvValEffect_rdata (dst : Option UvReg) (r : Run) (s : State) : (uvValEffect dst r s).rdata = s.rdata := by
  unfold uvValEffect; dsimp only; split <;> rfl
@[simp] theorem uvValEffect_sched (dst : Option UvReg) (r : Run) (s : State) : (uvValEffect dst r s).sched = s.sched := by
  unfold uvValEffect; dsimp only; split <;> rfl
@[simp] theorem uvValEffect_turns (dst : Option UvReg) (r : Run) (s : State) : (uvValEffect dst r s).turns = s.turns := by
  unfold uvValEffect; dsimp only; split <;> rfl
@[simp] theorem uvValEffect_env (dst : Option UvReg) (r : Run) (s : State) : (uvValEffect dst r s).env = s.env := by
  unfold uvValEffect; dsimp only; split <;> rfl

/-! ### launch writes seq and nothing else -/

@[simp] theorem launch_ctrl (i : Instr) (p : List MuOp) (s : State) : (launch i p s).ctrl = s.ctrl := by
  unfold launch; (repeat' split) <;> rfl
@[simp] theorem launch_status (i : Instr) (p : List MuOp) (s : State) : (launch i p s).status = s.status := by
  unfold launch; (repeat' split) <;> rfl
@[simp] theorem launch_arg (i : Instr) (p : List MuOp) (s : State) : (launch i p s).arg = s.arg := by
  unfold launch; (repeat' split) <;> rfl
@[simp] theorem launch_cmd (i : Instr) (p : List MuOp) (s : State) : (launch i p s).cmd = s.cmd := by
  unfold launch; (repeat' split) <;> rfl
@[simp] theorem launch_res (i : Instr) (p : List MuOp) (s : State) : (launch i p s).res = s.res := by
  unfold launch; (repeat' split) <;> rfl
@[simp] theorem launch_clkHz (i : Instr) (p : List MuOp) (s : State) : (launch i p s).clkHz = s.clkHz := by
  unfold launch; (repeat' split) <;> rfl
@[simp] theorem launch_laddr (i : Instr) (p : List MuOp) (s : State) : (launch i p s).laddr = s.laddr := by
  unfold launch; (repeat' split) <;> rfl
@[simp] theorem launch_cnt (i : Instr) (p : List MuOp) (s : State) : (launch i p s).cnt = s.cnt := by
  unfold launch; (repeat' split) <;> rfl
@[simp] theorem launch_nodeType (i : Instr) (p : List MuOp) (s : State) : (launch i p s).nodeType = s.nodeType := by
  unfold launch; (repeat' split) <;> rfl
@[simp] theorem launch_uid0 (i : Instr) (p : List MuOp) (s : State) : (launch i p s).uid0 = s.uid0 := by
  unfold launch; (repeat' split) <;> rfl
@[simp] theorem launch_uid1 (i : Instr) (p : List MuOp) (s : State) : (launch i p s).uid1 = s.uid1 := by
  unfold launch; (repeat' split) <;> rfl
@[simp] theorem launch_swver (i : Instr) (p : List MuOp) (s : State) : (launch i p s).swver = s.swver := by
  unfold launch; (repeat' split) <;> rfl
@[simp] theorem launch_batt (i : Instr) (p : List MuOp) (s : State) : (launch i p s).batt = s.batt := by
  unfold launch; (repeat' split) <;> rfl
@[simp] theorem launch_temp (i : Instr) (p : List MuOp) (s : State) : (launch i p s).temp = s.temp := by
  unfold launch; (repeat' split) <;> rfl
@[simp] theorem launch_uva (i : Instr) (p : List MuOp) (s : State) : (launch i p s).uva = s.uva := by
  unfold launch; (repeat' split) <;> rfl
@[simp] theorem launch_uvb (i : Instr) (p : List MuOp) (s : State) : (launch i p s).uvb = s.uvb := by
  unfold launch; (repeat' split) <;> rfl
@[simp] theorem launch_comp1 (i : Instr) (p : List MuOp) (s : State) : (launch i p s).comp1 = s.comp1 := by
  unfold launch; (repeat' split) <;> rfl
@[simp] theorem launch_comp2 (i : Instr) (p : List MuOp) (s : State) : (launch i p s).comp2 = s.comp2 := by
  unfold launch; (repeat' split) <;> rfl
@[simp] theorem launch_light (i : Instr) (p : List MuOp) (s : State) : (launch i p s).light = s.light := by
  unfold launch; (repeat' split) <;> rfl
@[simp] theorem launch_diag (i : Instr) (p : List MuOp) (s : State) : (launch i p s).diag = s.diag := by
  unfold launch; (repeat' split) <;> rfl
@[simp] theorem launch_frame (i : Instr) (p : List MuOp) (s : State) : (launch i p s).frame = s.frame := by
  unfold launch; (repeat' split) <;> rfl
@[simp] theorem launch_phy (i : Instr) (p : List MuOp) (s : State) : (launch i p s).phy = s.phy := by
  unfold launch; (repeat' split) <;> rfl
@[simp] theorem launch_ci (i : Instr) (p : List MuOp) (s : State) : (launch i p s).ci = s.ci := by
  unfold launch; (repeat' split) <;> rfl
@[simp] theorem launch_ackstat (i : Instr) (p : List MuOp) (s : State) : (launch i p s).ackstat = s.ackstat := by
  unfold launch; (repeat' split) <;> rfl
@[simp] theorem launch_rxbuf (i : Instr) (p : List MuOp) (s : State) : (launch i p s).rxbuf = s.rxbuf := by
  unfold launch; (repeat' split) <;> rfl
@[simp] theorem launch_fs (i : Instr) (p : List MuOp) (s : State) : (launch i p s).fs = s.fs := by
  unfold launch; (repeat' split) <;> rfl
@[simp] theorem launch_pins (i : Instr) (p : List MuOp) (s : State) : (launch i p s).pins = s.pins := by
  unfold launch; (repeat' split) <;> rfl
@[simp] theorem launch_trace (i : Instr) (p : List MuOp) (s : State) : (launch i p s).trace = s.trace := by
  unfold launch; (repeat' split) <;> rfl
@[simp] theorem launch_initd (i : Instr) (p : List MuOp) (s : State) : (launch i p s).initd = s.initd := by
  unfold launch; (repeat' split) <;> rfl
@[simp] theorem launch_argLatch (i : Instr) (p : List MuOp) (s : State) : (launch i p s).argLatch = s.argLatch := by
  unfold launch; (repeat' split) <;> rfl
@[simp] theorem launch_host (i : Instr) (p : List MuOp) (s : State) : (launch i p s).host = s.host := by
  unfold launch; (repeat' split) <;> rfl
@[simp] theorem launch_rdata (i : Instr) (p : List MuOp) (s : State) : (launch i p s).rdata = s.rdata := by
  unfold launch; (repeat' split) <;> rfl
@[simp] theorem launch_sched (i : Instr) (p : List MuOp) (s : State) : (launch i p s).sched = s.sched := by
  unfold launch; (repeat' split) <;> rfl
@[simp] theorem launch_turns (i : Instr) (p : List MuOp) (s : State) : (launch i p s).turns = s.turns := by
  unfold launch; (repeat' split) <;> rfl
@[simp] theorem launch_env (i : Instr) (p : List MuOp) (s : State) : (launch i p s).env = s.env := by
  unfold launch; (repeat' split) <;> rfl

/-! ### advanceTo writes seq and nothing else -/

@[simp] theorem advanceTo_ctrl (n : Nat) (r : Run) (s : State) : (advanceTo n r s).ctrl = s.ctrl := by
  unfold advanceTo; (repeat' split) <;> rfl
@[simp] theorem advanceTo_status (n : Nat) (r : Run) (s : State) : (advanceTo n r s).status = s.status := by
  unfold advanceTo; (repeat' split) <;> rfl
@[simp] theorem advanceTo_arg (n : Nat) (r : Run) (s : State) : (advanceTo n r s).arg = s.arg := by
  unfold advanceTo; (repeat' split) <;> rfl
@[simp] theorem advanceTo_cmd (n : Nat) (r : Run) (s : State) : (advanceTo n r s).cmd = s.cmd := by
  unfold advanceTo; (repeat' split) <;> rfl
@[simp] theorem advanceTo_res (n : Nat) (r : Run) (s : State) : (advanceTo n r s).res = s.res := by
  unfold advanceTo; (repeat' split) <;> rfl
@[simp] theorem advanceTo_clkHz (n : Nat) (r : Run) (s : State) : (advanceTo n r s).clkHz = s.clkHz := by
  unfold advanceTo; (repeat' split) <;> rfl
@[simp] theorem advanceTo_laddr (n : Nat) (r : Run) (s : State) : (advanceTo n r s).laddr = s.laddr := by
  unfold advanceTo; (repeat' split) <;> rfl
@[simp] theorem advanceTo_cnt (n : Nat) (r : Run) (s : State) : (advanceTo n r s).cnt = s.cnt := by
  unfold advanceTo; (repeat' split) <;> rfl
@[simp] theorem advanceTo_nodeType (n : Nat) (r : Run) (s : State) : (advanceTo n r s).nodeType = s.nodeType := by
  unfold advanceTo; (repeat' split) <;> rfl
@[simp] theorem advanceTo_uid0 (n : Nat) (r : Run) (s : State) : (advanceTo n r s).uid0 = s.uid0 := by
  unfold advanceTo; (repeat' split) <;> rfl
@[simp] theorem advanceTo_uid1 (n : Nat) (r : Run) (s : State) : (advanceTo n r s).uid1 = s.uid1 := by
  unfold advanceTo; (repeat' split) <;> rfl
@[simp] theorem advanceTo_swver (n : Nat) (r : Run) (s : State) : (advanceTo n r s).swver = s.swver := by
  unfold advanceTo; (repeat' split) <;> rfl
@[simp] theorem advanceTo_batt (n : Nat) (r : Run) (s : State) : (advanceTo n r s).batt = s.batt := by
  unfold advanceTo; (repeat' split) <;> rfl
@[simp] theorem advanceTo_temp (n : Nat) (r : Run) (s : State) : (advanceTo n r s).temp = s.temp := by
  unfold advanceTo; (repeat' split) <;> rfl
@[simp] theorem advanceTo_uva (n : Nat) (r : Run) (s : State) : (advanceTo n r s).uva = s.uva := by
  unfold advanceTo; (repeat' split) <;> rfl
@[simp] theorem advanceTo_uvb (n : Nat) (r : Run) (s : State) : (advanceTo n r s).uvb = s.uvb := by
  unfold advanceTo; (repeat' split) <;> rfl
@[simp] theorem advanceTo_comp1 (n : Nat) (r : Run) (s : State) : (advanceTo n r s).comp1 = s.comp1 := by
  unfold advanceTo; (repeat' split) <;> rfl
@[simp] theorem advanceTo_comp2 (n : Nat) (r : Run) (s : State) : (advanceTo n r s).comp2 = s.comp2 := by
  unfold advanceTo; (repeat' split) <;> rfl
@[simp] theorem advanceTo_light (n : Nat) (r : Run) (s : State) : (advanceTo n r s).light = s.light := by
  unfold advanceTo; (repeat' split) <;> rfl
@[simp] theorem advanceTo_diag (n : Nat) (r : Run) (s : State) : (advanceTo n r s).diag = s.diag := by
  unfold advanceTo; (repeat' split) <;> rfl
@[simp] theorem advanceTo_frame (n : Nat) (r : Run) (s : State) : (advanceTo n r s).frame = s.frame := by
  unfold advanceTo; (repeat' split) <;> rfl
@[simp] theorem advanceTo_phy (n : Nat) (r : Run) (s : State) : (advanceTo n r s).phy = s.phy := by
  unfold advanceTo; (repeat' split) <;> rfl
@[simp] theorem advanceTo_ci (n : Nat) (r : Run) (s : State) : (advanceTo n r s).ci = s.ci := by
  unfold advanceTo; (repeat' split) <;> rfl
@[simp] theorem advanceTo_ackstat (n : Nat) (r : Run) (s : State) : (advanceTo n r s).ackstat = s.ackstat := by
  unfold advanceTo; (repeat' split) <;> rfl
@[simp] theorem advanceTo_rxbuf (n : Nat) (r : Run) (s : State) : (advanceTo n r s).rxbuf = s.rxbuf := by
  unfold advanceTo; (repeat' split) <;> rfl
@[simp] theorem advanceTo_fs (n : Nat) (r : Run) (s : State) : (advanceTo n r s).fs = s.fs := by
  unfold advanceTo; (repeat' split) <;> rfl
@[simp] theorem advanceTo_pins (n : Nat) (r : Run) (s : State) : (advanceTo n r s).pins = s.pins := by
  unfold advanceTo; (repeat' split) <;> rfl
@[simp] theorem advanceTo_trace (n : Nat) (r : Run) (s : State) : (advanceTo n r s).trace = s.trace := by
  unfold advanceTo; (repeat' split) <;> rfl
@[simp] theorem advanceTo_initd (n : Nat) (r : Run) (s : State) : (advanceTo n r s).initd = s.initd := by
  unfold advanceTo; (repeat' split) <;> rfl
@[simp] theorem advanceTo_argLatch (n : Nat) (r : Run) (s : State) : (advanceTo n r s).argLatch = s.argLatch := by
  unfold advanceTo; (repeat' split) <;> rfl
@[simp] theorem advanceTo_host (n : Nat) (r : Run) (s : State) : (advanceTo n r s).host = s.host := by
  unfold advanceTo; (repeat' split) <;> rfl
@[simp] theorem advanceTo_rdata (n : Nat) (r : Run) (s : State) : (advanceTo n r s).rdata = s.rdata := by
  unfold advanceTo; (repeat' split) <;> rfl
@[simp] theorem advanceTo_sched (n : Nat) (r : Run) (s : State) : (advanceTo n r s).sched = s.sched := by
  unfold advanceTo; (repeat' split) <;> rfl
@[simp] theorem advanceTo_turns (n : Nat) (r : Run) (s : State) : (advanceTo n r s).turns = s.turns := by
  unfold advanceTo; (repeat' split) <;> rfl
@[simp] theorem advanceTo_env (n : Nat) (r : Run) (s : State) : (advanceTo n r s).env = s.env := by
  unfold advanceTo; (repeat' split) <;> rfl

/-! ### waitPoll writes seq, status, diag and nothing else -/

@[simp] theorem waitPoll_ctrl (ok : Bool) (r : Run) (s : State) : (waitPoll ok r s).ctrl = s.ctrl := by
  unfold waitPoll advance advanceTo; (repeat' split) <;> rfl
@[simp] theorem waitPoll_arg (ok : Bool) (r : Run) (s : State) : (waitPoll ok r s).arg = s.arg := by
  unfold waitPoll advance advanceTo; (repeat' split) <;> rfl
@[simp] theorem waitPoll_cmd (ok : Bool) (r : Run) (s : State) : (waitPoll ok r s).cmd = s.cmd := by
  unfold waitPoll advance advanceTo; (repeat' split) <;> rfl
@[simp] theorem waitPoll_res (ok : Bool) (r : Run) (s : State) : (waitPoll ok r s).res = s.res := by
  unfold waitPoll advance advanceTo; (repeat' split) <;> rfl
@[simp] theorem waitPoll_clkHz (ok : Bool) (r : Run) (s : State) : (waitPoll ok r s).clkHz = s.clkHz := by
  unfold waitPoll advance advanceTo; (repeat' split) <;> rfl
@[simp] theorem waitPoll_laddr (ok : Bool) (r : Run) (s : State) : (waitPoll ok r s).laddr = s.laddr := by
  unfold waitPoll advance advanceTo; (repeat' split) <;> rfl
@[simp] theorem waitPoll_cnt (ok : Bool) (r : Run) (s : State) : (waitPoll ok r s).cnt = s.cnt := by
  unfold waitPoll advance advanceTo; (repeat' split) <;> rfl
@[simp] theorem waitPoll_nodeType (ok : Bool) (r : Run) (s : State) : (waitPoll ok r s).nodeType = s.nodeType := by
  unfold waitPoll advance advanceTo; (repeat' split) <;> rfl
@[simp] theorem waitPoll_uid0 (ok : Bool) (r : Run) (s : State) : (waitPoll ok r s).uid0 = s.uid0 := by
  unfold waitPoll advance advanceTo; (repeat' split) <;> rfl
@[simp] theorem waitPoll_uid1 (ok : Bool) (r : Run) (s : State) : (waitPoll ok r s).uid1 = s.uid1 := by
  unfold waitPoll advance advanceTo; (repeat' split) <;> rfl
@[simp] theorem waitPoll_swver (ok : Bool) (r : Run) (s : State) : (waitPoll ok r s).swver = s.swver := by
  unfold waitPoll advance advanceTo; (repeat' split) <;> rfl
@[simp] theorem waitPoll_batt (ok : Bool) (r : Run) (s : State) : (waitPoll ok r s).batt = s.batt := by
  unfold waitPoll advance advanceTo; (repeat' split) <;> rfl
@[simp] theorem waitPoll_temp (ok : Bool) (r : Run) (s : State) : (waitPoll ok r s).temp = s.temp := by
  unfold waitPoll advance advanceTo; (repeat' split) <;> rfl
@[simp] theorem waitPoll_uva (ok : Bool) (r : Run) (s : State) : (waitPoll ok r s).uva = s.uva := by
  unfold waitPoll advance advanceTo; (repeat' split) <;> rfl
@[simp] theorem waitPoll_uvb (ok : Bool) (r : Run) (s : State) : (waitPoll ok r s).uvb = s.uvb := by
  unfold waitPoll advance advanceTo; (repeat' split) <;> rfl
@[simp] theorem waitPoll_comp1 (ok : Bool) (r : Run) (s : State) : (waitPoll ok r s).comp1 = s.comp1 := by
  unfold waitPoll advance advanceTo; (repeat' split) <;> rfl
@[simp] theorem waitPoll_comp2 (ok : Bool) (r : Run) (s : State) : (waitPoll ok r s).comp2 = s.comp2 := by
  unfold waitPoll advance advanceTo; (repeat' split) <;> rfl
@[simp] theorem waitPoll_light (ok : Bool) (r : Run) (s : State) : (waitPoll ok r s).light = s.light := by
  unfold waitPoll advance advanceTo; (repeat' split) <;> rfl
@[simp] theorem waitPoll_frame (ok : Bool) (r : Run) (s : State) : (waitPoll ok r s).frame = s.frame := by
  unfold waitPoll advance advanceTo; (repeat' split) <;> rfl
@[simp] theorem waitPoll_phy (ok : Bool) (r : Run) (s : State) : (waitPoll ok r s).phy = s.phy := by
  unfold waitPoll advance advanceTo; (repeat' split) <;> rfl
@[simp] theorem waitPoll_ci (ok : Bool) (r : Run) (s : State) : (waitPoll ok r s).ci = s.ci := by
  unfold waitPoll advance advanceTo; (repeat' split) <;> rfl
@[simp] theorem waitPoll_ackstat (ok : Bool) (r : Run) (s : State) : (waitPoll ok r s).ackstat = s.ackstat := by
  unfold waitPoll advance advanceTo; (repeat' split) <;> rfl
@[simp] theorem waitPoll_rxbuf (ok : Bool) (r : Run) (s : State) : (waitPoll ok r s).rxbuf = s.rxbuf := by
  unfold waitPoll advance advanceTo; (repeat' split) <;> rfl
@[simp] theorem waitPoll_fs (ok : Bool) (r : Run) (s : State) : (waitPoll ok r s).fs = s.fs := by
  unfold waitPoll advance advanceTo; (repeat' split) <;> rfl
@[simp] theorem waitPoll_pins (ok : Bool) (r : Run) (s : State) : (waitPoll ok r s).pins = s.pins := by
  unfold waitPoll advance advanceTo; (repeat' split) <;> rfl
@[simp] theorem waitPoll_trace (ok : Bool) (r : Run) (s : State) : (waitPoll ok r s).trace = s.trace := by
  unfold waitPoll advance advanceTo; (repeat' split) <;> rfl
@[simp] theorem waitPoll_initd (ok : Bool) (r : Run) (s : State) : (waitPoll ok r s).initd = s.initd := by
  unfold waitPoll advance advanceTo; (repeat' split) <;> rfl
@[simp] theorem waitPoll_argLatch (ok : Bool) (r : Run) (s : State) : (waitPoll ok r s).argLatch = s.argLatch := by
  unfold waitPoll advance advanceTo; (repeat' split) <;> rfl
@[simp] theorem waitPoll_host (ok : Bool) (r : Run) (s : State) : (waitPoll ok r s).host = s.host := by
  unfold waitPoll advance advanceTo; (repeat' split) <;> rfl
@[simp] theorem waitPoll_rdata (ok : Bool) (r : Run) (s : State) : (waitPoll ok r s).rdata = s.rdata := by
  unfold waitPoll advance advanceTo; (repeat' split) <;> rfl
@[simp] theorem waitPoll_sched (ok : Bool) (r : Run) (s : State) : (waitPoll ok r s).sched = s.sched := by
  unfold waitPoll advance advanceTo; (repeat' split) <;> rfl
@[simp] theorem waitPoll_turns (ok : Bool) (r : Run) (s : State) : (waitPoll ok r s).turns = s.turns := by
  unfold waitPoll advance advanceTo; (repeat' split) <;> rfl
@[simp] theorem waitPoll_env (ok : Bool) (r : Run) (s : State) : (waitPoll ok r s).env = s.env := by
  unfold waitPoll advance advanceTo; (repeat' split) <;> rfl

/-! ### turnTaken writes sched, turns and nothing else -/

@[simp] theorem turnTaken_ctrl (s : State) : (turnTaken s).ctrl = s.ctrl := by
  unfold turnTaken; (repeat' split) <;> rfl
@[simp] theorem turnTaken_status (s : State) : (turnTaken s).status = s.status := by
  unfold turnTaken; (repeat' split) <;> rfl
@[simp] theorem turnTaken_arg (s : State) : (turnTaken s).arg = s.arg := by
  unfold turnTaken; (repeat' split) <;> rfl
@[simp] theorem turnTaken_cmd (s : State) : (turnTaken s).cmd = s.cmd := by
  unfold turnTaken; (repeat' split) <;> rfl
@[simp] theorem turnTaken_res (s : State) : (turnTaken s).res = s.res := by
  unfold turnTaken; (repeat' split) <;> rfl
@[simp] theorem turnTaken_clkHz (s : State) : (turnTaken s).clkHz = s.clkHz := by
  unfold turnTaken; (repeat' split) <;> rfl
@[simp] theorem turnTaken_laddr (s : State) : (turnTaken s).laddr = s.laddr := by
  unfold turnTaken; (repeat' split) <;> rfl
@[simp] theorem turnTaken_cnt (s : State) : (turnTaken s).cnt = s.cnt := by
  unfold turnTaken; (repeat' split) <;> rfl
@[simp] theorem turnTaken_nodeType (s : State) : (turnTaken s).nodeType = s.nodeType := by
  unfold turnTaken; (repeat' split) <;> rfl
@[simp] theorem turnTaken_uid0 (s : State) : (turnTaken s).uid0 = s.uid0 := by
  unfold turnTaken; (repeat' split) <;> rfl
@[simp] theorem turnTaken_uid1 (s : State) : (turnTaken s).uid1 = s.uid1 := by
  unfold turnTaken; (repeat' split) <;> rfl
@[simp] theorem turnTaken_swver (s : State) : (turnTaken s).swver = s.swver := by
  unfold turnTaken; (repeat' split) <;> rfl
@[simp] theorem turnTaken_batt (s : State) : (turnTaken s).batt = s.batt := by
  unfold turnTaken; (repeat' split) <;> rfl
@[simp] theorem turnTaken_temp (s : State) : (turnTaken s).temp = s.temp := by
  unfold turnTaken; (repeat' split) <;> rfl
@[simp] theorem turnTaken_uva (s : State) : (turnTaken s).uva = s.uva := by
  unfold turnTaken; (repeat' split) <;> rfl
@[simp] theorem turnTaken_uvb (s : State) : (turnTaken s).uvb = s.uvb := by
  unfold turnTaken; (repeat' split) <;> rfl
@[simp] theorem turnTaken_comp1 (s : State) : (turnTaken s).comp1 = s.comp1 := by
  unfold turnTaken; (repeat' split) <;> rfl
@[simp] theorem turnTaken_comp2 (s : State) : (turnTaken s).comp2 = s.comp2 := by
  unfold turnTaken; (repeat' split) <;> rfl
@[simp] theorem turnTaken_light (s : State) : (turnTaken s).light = s.light := by
  unfold turnTaken; (repeat' split) <;> rfl
@[simp] theorem turnTaken_diag (s : State) : (turnTaken s).diag = s.diag := by
  unfold turnTaken; (repeat' split) <;> rfl
@[simp] theorem turnTaken_frame (s : State) : (turnTaken s).frame = s.frame := by
  unfold turnTaken; (repeat' split) <;> rfl
@[simp] theorem turnTaken_phy (s : State) : (turnTaken s).phy = s.phy := by
  unfold turnTaken; (repeat' split) <;> rfl
@[simp] theorem turnTaken_ci (s : State) : (turnTaken s).ci = s.ci := by
  unfold turnTaken; (repeat' split) <;> rfl
@[simp] theorem turnTaken_ackstat (s : State) : (turnTaken s).ackstat = s.ackstat := by
  unfold turnTaken; (repeat' split) <;> rfl
@[simp] theorem turnTaken_rxbuf (s : State) : (turnTaken s).rxbuf = s.rxbuf := by
  unfold turnTaken; (repeat' split) <;> rfl
@[simp] theorem turnTaken_fs (s : State) : (turnTaken s).fs = s.fs := by
  unfold turnTaken; (repeat' split) <;> rfl
@[simp] theorem turnTaken_seq (s : State) : (turnTaken s).seq = s.seq := by
  unfold turnTaken; (repeat' split) <;> rfl
@[simp] theorem turnTaken_pins (s : State) : (turnTaken s).pins = s.pins := by
  unfold turnTaken; (repeat' split) <;> rfl
@[simp] theorem turnTaken_trace (s : State) : (turnTaken s).trace = s.trace := by
  unfold turnTaken; (repeat' split) <;> rfl
@[simp] theorem turnTaken_initd (s : State) : (turnTaken s).initd = s.initd := by
  unfold turnTaken; (repeat' split) <;> rfl
@[simp] theorem turnTaken_argLatch (s : State) : (turnTaken s).argLatch = s.argLatch := by
  unfold turnTaken; (repeat' split) <;> rfl
@[simp] theorem turnTaken_host (s : State) : (turnTaken s).host = s.host := by
  unfold turnTaken; (repeat' split) <;> rfl
@[simp] theorem turnTaken_rdata (s : State) : (turnTaken s).rdata = s.rdata := by
  unfold turnTaken; (repeat' split) <;> rfl
@[simp] theorem turnTaken_env (s : State) : (turnTaken s).env = s.env := by
  unfold turnTaken; (repeat' split) <;> rfl

end Sys2Proof.Machine
end

