-- ==== Sys2Proof/Laws/PerInstr.lean ====
section
/-! SUPPORT. Laws stated once per command, one lemma per constructor of Instr. -/

/-- R80, R94: the command's word hits the opcode table's row of its mnemonic and no other row, and its reserved bits
[31:9] are 0. -/
def Sys2Proof.Laws.RowMatches.Statement (i : Sys2Proof.Instr) : Prop :=
  (Sys2Proof.opcodeTable.filter (fun row => row.hits (Sys2Proof.encode i))).map Sys2Proof.TableRow.mnemonic = [i.mnemonic] ∧
    Sys2Proof.rsvField (Sys2Proof.encode i) = 0#23

theorem Sys2Proof.Laws.RowMatches.nop : Sys2Proof.Laws.RowMatches.Statement .nop := ⟨by decide, by decide⟩

theorem Sys2Proof.Laws.RowMatches.init : Sys2Proof.Laws.RowMatches.Statement .init := ⟨by decide, by decide⟩

theorem Sys2Proof.Laws.RowMatches.deinit : Sys2Proof.Laws.RowMatches.Statement .deinit := ⟨by decide, by decide⟩

theorem Sys2Proof.Laws.RowMatches.start : Sys2Proof.Laws.RowMatches.Statement .start := ⟨by decide, by decide⟩

theorem Sys2Proof.Laws.RowMatches.rstart : Sys2Proof.Laws.RowMatches.Statement .rstart := ⟨by decide, by decide⟩

theorem Sys2Proof.Laws.RowMatches.stop : Sys2Proof.Laws.RowMatches.Statement .stop := ⟨by decide, by decide⟩

theorem Sys2Proof.Laws.RowMatches.write : Sys2Proof.Laws.RowMatches.Statement .write := ⟨by decide, by decide⟩

theorem Sys2Proof.Laws.RowMatches.read (sendAck : Bool) : Sys2Proof.Laws.RowMatches.Statement (.read sendAck) := by
  cases sendAck <;> exact ⟨by decide, by decide⟩

theorem Sys2Proof.Laws.RowMatches.recover : Sys2Proof.Laws.RowMatches.Statement .recover := ⟨by decide, by decide⟩

theorem Sys2Proof.Laws.RowMatches.lSetAddr (highVariant : Bool) : Sys2Proof.Laws.RowMatches.Statement (.lSetAddr highVariant) := by
  cases highVariant <;> exact ⟨by decide, by decide⟩

theorem Sys2Proof.Laws.RowMatches.lSetMode : Sys2Proof.Laws.RowMatches.Statement .lSetMode := ⟨by decide, by decide⟩

theorem Sys2Proof.Laws.RowMatches.lSetMt : Sys2Proof.Laws.RowMatches.Statement .lSetMt := ⟨by decide, by decide⟩

theorem Sys2Proof.Laws.RowMatches.lRead : Sys2Proof.Laws.RowMatches.Statement .lRead := ⟨by decide, by decide⟩

theorem Sys2Proof.Laws.RowMatches.uvWrCfg : Sys2Proof.Laws.RowMatches.Statement .uvWrCfg := ⟨by decide, by decide⟩

theorem Sys2Proof.Laws.RowMatches.uvRdReg : Sys2Proof.Laws.RowMatches.Statement .uvRdReg := ⟨by decide, by decide⟩

theorem Sys2Proof.Laws.RowMatches.uvStart : Sys2Proof.Laws.RowMatches.Statement .uvStart := ⟨by decide, by decide⟩

theorem Sys2Proof.Laws.RowMatches.uvRead : Sys2Proof.Laws.RowMatches.Statement .uvRead := ⟨by decide, by decide⟩

theorem Sys2Proof.Laws.RowMatches.frBuild : Sys2Proof.Laws.RowMatches.Statement .frBuild := ⟨by decide, by decide⟩

theorem Sys2Proof.Laws.RowMatches.cntInc : Sys2Proof.Laws.RowMatches.Statement .cntInc := ⟨by decide, by decide⟩
end

