-- ==== Sys2Proof/Laws/Programs.lean ====
section
/-! SUPPORT. Where each micro-op may stand: one table over all nineteen programs, read off once, so that a proof about
every SEQ step needs no split over the programs. And what keeps the FRAME memory canonical. -/

namespace Sys2Proof.Machine

/-- The two commands that begin with the recovery segment. -/
def recovers : Instr → Bool
  | .recover => true
  | .uvRead => true
  | .nop => false
  | .init => false
  | .deinit => false
  | .start => false
  | .rstart => false
  | .stop => false
  | .write => false
  | .read _ => false
  | .lSetAddr _ => false
  | .lSetMode => false
  | .lSetMt => false
  | .lRead => false
  | .uvWrCfg => false
  | .uvRdReg => false
  | .uvStart => false
  | .frBuild => false
  | .cntInc => false

/-- Position `k` of the program of `i` is outside the recovery segment. -/
def outsideRecovery (i : Instr) (k : Nat) : Bool := !recovers i || Nat.ble recoveryLength k

/-- The commands that send bytes, so capture acknowledge bits and set or clear S.ci. -/
def sendsBytes : Instr → Bool
  | .write => true
  | .lSetMode => true
  | .lSetMt => true
  | .lRead => true
  | .uvWrCfg => true
  | .uvRdReg => true
  | .uvStart => true
  | .uvRead => true
  | .nop => false
  | .init => false
  | .deinit => false
  | .start => false
  | .rstart => false
  | .stop => false
  | .read _ => false
  | .recover => false
  | .lSetAddr _ => false
  | .frBuild => false
  | .cntInc => false

/-- The commands that emit conditions. -/
def emitsConds : Instr → Bool
  | .start => true
  | .rstart => true
  | .stop => true
  | .lSetMode => true
  | .lSetMt => true
  | .lRead => true
  | .uvWrCfg => true
  | .uvRdReg => true
  | .uvStart => true
  | .uvRead => true
  | .nop => false
  | .init => false
  | .deinit => false
  | .write => false
  | .read _ => false
  | .recover => false
  | .lSetAddr _ => false
  | .frBuild => false
  | .cntInc => false

/-- Whether `i` is READ. -/
def isRead : Instr → Bool
  | .read _ => true
  | _ => false

/-- What position `k` of the program of `i` is, where the micro-op there is the given one. -/
def standsAt (i : Instr) (k : Nat) : MuOp → Bool
  | .sdaSample => recovers i && (k == 0 || k == 36)
  | .brHigh t => recovers i && k == 1 && t == recoveryLength
  | .sclTake => recovers i && k == 2
  | .sclDrive _ => recovers i && Nat.ble 3 k && Nat.ble k 34
  | .delay _ => recovers i && Nat.ble 3 k && Nat.ble k 34
  | .sclRestore => recovers i && k == 35
  | .recFinish => recovers i && k == 37
  | .waitIdle => needsInit i && outsideRecovery i k
  | .waitCi => needsInit i && sendsBytes i && outsideRecovery i k
  | .clrCi => needsInit i && sendsBytes i && outsideRecovery i k
  | .cond _ => needsInit i && emitsConds i && outsideRecovery i k
  | .txgo _ => needsInit i && sendsBytes i && outsideRecovery i k
  | .rxgo => needsInit i && outsideRecovery i k
  | .ackgo _ => needsInit i && outsideRecovery i k
  | .capAck toRes => needsInit i && sendsBytes i && outsideRecovery i k && (toRes == (i == .write))
  | .capRx dst => needsInit i && outsideRecovery i k && ((dst == .res) == isRead i)
  | .set e =>
    outsideRecovery i k &&
    match e with
    | .init => i == .init
    | .deinit => i == .deinit
    | .laddr hv => i == .lSetAddr hv
    | .mtHi => i == .lSetMt
    | .mtLo => i == .lSetMt
    | .light => i == .lRead
    | .uvCfg => i == .uvStart
    | .uvVal none => i == .uvRdReg
    | .uvVal (some _) => i == .uvRead
    | .frame => i == .frBuild
    | .cntInc => i == .cntInc

theorem program_standsAt_all (i : Instr) : (program i).zipIdx.all (fun p => standsAt i p.2 p.1) = true := by
  cases i <;> first | rfl | (rename_i b; cases b <;> rfl)

/-- Every micro-op of every program stands where the table says. -/
theorem program_standsAt {i : Instr} {k : Nat} {u : MuOp} (h : (program i)[k]? = some u) : standsAt i k u = true :=
  List.all_eq_true.mp (program_standsAt_all i) (u, k) (List.mem_zipIdx_iff_getElem?.mpr h)

/-- Under `SequencerOk`, a SEQ step of a running command is a micro-op of the command's own program, where the table
says. -/
theorem seqStep_standsAt {s : State} {r : Run} (h : SequencerOk s) (hr : s.seq = .run r) :
    ∃ u, (program r.op)[r.step]? = some u ∧ standsAt r.op r.step u = true ∧ seqStep s = u.run r s := by
  obtain ⟨hp, hl, _⟩ := h r hr
  obtain ⟨u, hu⟩ : ∃ u, r.prog[r.step]? = some u := ⟨_, List.getElem?_eq_getElem hl⟩
  have hu' := hu
  rw [hp] at hu'
  exact ⟨u, hu', program_standsAt hu', seqStep_run hr hu⟩

/-! ### The FRAME memory -/

/-- The frame assembly keeps the memory canonical. -/
theorem frameEffect_wf {s : State} (h : s.frame.wf) : (frameEffect s).frame.wf := by
  rw [frameEffect_frame]
  exact memory_writeBytes_wf h _ _

/-- The reset state's memory is canonical. -/
theorem reset_frame_wf : State.reset.frame.wf := memory_wf_nil

/-- A SEQ step writes FRAME by FR.BUILD's SET alone. -/
theorem muOp_frame (u : MuOp) (r : Run) (s : State) (h : u ≠ .set .frame) : (u.run r s).frame = s.frame := by
  cases u with
  | set e => cases e <;> first | exact absurd rfl h | simp [MuOp.run, advance, SetOp.apply]
  | capRx dst => cases dst <;> simp [MuOp.run, captureRx, advance]
  | brHigh t => simp only [MuOp.run, advance]; split <;> simp
  | _ => simp [MuOp.run, advance]

/-- Every SEQ step keeps the memory canonical. -/
theorem seqStep_frame_wf {s : State} (h : s.frame.wf) : (seqStep s).frame.wf := by
  unfold seqStep
  split
  · exact h
  · split
    · rename_i r _ _ u _
      by_cases hu : u = .set .frame
      · subst hu
        simpa [MuOp.run, advance, SetOp.apply] using frameEffect_wf h
      · rw [muOp_frame u r s hu]
        exact h
    · exact h

end Sys2Proof.Machine
end

