-- ==== Sys2Proof/Laws/Segments.lean ====
section
/-! SUPPORT. What each whole transaction and the recovery segment do, wherever they stand in a command's program: one
lemma per shared macro, over the segment lemmas of Eager.lean. -/

namespace Sys2Proof.Machine
/-! ### Whole transactions -/

/-- `l` stands in `prog` from micro-op `n` on. -/
abbrev Segment (prog : List MuOp) (n : Nat) (l : List MuOp) : Prop := (prog.drop n).take l.length = l

theorem segment_at {prog l : List MuOp} {n k : Nat} {u : MuOp} (h : Segment prog n l) (hk : l[k]? = some u) :
    prog[n + k]? = some u := by
  rw [← h, List.getElem?_take] at hk
  split at hk
  · rwa [List.getElem?_drop] at hk
  · cases hk

/-- A segment's last micro-op stands in the program. -/
theorem segment_le {prog l : List MuOp} {n : Nat} (h : Segment prog n l) (hn : l ≠ []) : n + l.length ≤ prog.length := by
  have h1 := congrArg List.length h
  have h2 := List.length_pos_iff.mpr hn
  simp only [List.length_take, List.length_drop] at h1
  omega

theorem eval_of {src : ByteSrc} {r r' : Run} {b q : State} {x : Byte} (h : src.eval r b = x) (h0 : r'.t0 = r.t0)
    (h1 : r'.t1 = r.t1) (hl : q.laddr = b.laddr) (ha : q.argLatch = b.argLatch) : src.eval r' q = x :=
  (eval_congr src h0 h1 hl ha).trans h

/-- A part of a segment is a segment. -/
theorem segment_part {prog l m : List MuOp} {n k : Nat} (h : Segment prog n l) (hm : Segment l k m) : Segment prog (n + k) m := by
  unfold Segment at *
  have h1 : ((prog.drop n).take l.length).drop k = (prog.drop (n + k)).take (l.length - k) := by
    rw [List.drop_take, List.drop_drop]
  rw [h] at h1
  rw [h1, List.take_take] at hm
  have h2 := congrArg List.length hm
  simp only [List.length_take, List.length_drop] at h2
  rwa [Nat.min_eq_left (by omega)] at hm

/-- A segment inside a longer one, then the rest of the longer one. -/
theorem eager_seq {m n k k' : Nat} {b b' b'' : State} {r r' r'' : Run}
    (h : runTurns (eager m) (b.at r) = .next (advanceTo k r' b')) (hk : k < r'.prog.length)
    (h2 : runTurns (eager n) (b'.at (r'.goto k)) = .next (advanceTo k' r'' b'')) :
    runTurns (eager (m + n)) (b.at r) = .next (advanceTo k' r'' b'') := by
  rw [eager_then h, advanceTo_lt hk]
  exact h2

/-- Several acknowledge bits, captured one after the other. -/
theorem nack_list (a b : Bool) (l : List Bool) (w : Word) :
    w + nackCount (a :: b :: l) = w + nackCount [a] + nackCount (b :: l) := by
  rw [nackCount_cons, BitVec.add_assoc]

/-- The eager effect of a light command transaction that sends the byte `x`. -/
def lightCommanded (x : Byte) (a1 a2 : Bool) (acks : List Bool) (b : State) : State :=
  { b with
    ci := true
    ackstat := a2
    fs := .idle
    status.ack := a2
    diag.nack := b.diag.nack + nackCount [a1, a2]
    env.acks := acks
    trace := b.trace ++ [emitted b.fs .start] ++ lightCommandTail b.laddr x a1 a2 }

/-- The eager effect of `T_LCMD(src)`. -/
theorem eager_lcmd {b : State} {r : Run} {n : Nat} {src : ByteSrc} {x : Byte} {a1 a2 : Bool} {acks : List Bool}
    (hq : b.phy = ⟨none, false⟩) (he : b.env.acks = a1 :: a2 :: acks) (hn : r.step = n)
    (h : Segment r.prog n (tLcmd src)) (hx : src.eval r b = x) :
    runTurns (eager 12) (b.at r) = .next (advanceTo (n + 12) r (lightCommanded x a1 a2 acks b)) := by
  have hl : n + 12 ≤ r.prog.length := segment_le h (by simp [tLcmd, tStart])
  have u (k : Nat) (u : MuOp) (hk : (tLcmd src)[k]? = some u) : r.prog[n + k]? = some u := segment_at h hk
  refine eager_seq (m := 2) (n := 10) (eager_cond (c := .start) hq hn (u 0 _ rfl) (u 1 _ rfl)) (by omega) ?_
  refine eager_seq (m := 4) (n := 6) (eager_write (n := n + 2) (src := .laddr) (toRes := false) hq rfl
    (u 2 _ rfl) (u 3 _ rfl) (u 4 _ rfl) (u 5 _ rfl) rfl) (by simp only; omega) ?_
  refine eager_seq (m := 4) (n := 2) (eager_write (n := n + 6) (src := src) (x := x) (toRes := false) hq rfl
    (u 6 _ rfl) (u 7 _ rfl) (u 8 _ rfl) (u 9 _ rfl) (eval_of hx rfl rfl rfl rfl)) (by simp only; omega) ?_
  refine Eq.trans (eager_cond (n := n + 10) (c := .stop) hq rfl (u 10 _ rfl) (u 11 _ rfl)) ?_
  refine congrArg (fun y => Host.Outcome.next (advanceTo (n + 12) r y)) ?_
  simp [lightCommanded, wroteByte, conditioned, Env.takeAck, he, Cond.framing, lightCommandTail, wrote, emitted, issued,
    plain, ByteSrc.eval, Cond.unframed, Cond.reopen, nack_one, nack_list]

/-- The eager effect of a register write transaction. -/
def uvWritten (a r lo hi : Byte) (a1 a2 a3 a4 : Bool) (acks : List Bool) (b : State) : State :=
  { b with
    ci := true
    ackstat := a4
    fs := .idle
    status.ack := a4
    diag.nack := b.diag.nack + nackCount [a1, a2, a3, a4]
    env.acks := acks
    trace := b.trace ++ [emitted b.fs .start] ++ uvWriteTail a r lo hi a1 a2 a3 a4 }

/-- The eager effect of `T_UVWR(a, g, lo, hi)`. -/
theorem eager_uvwr {b : State} {r : Run} {n : Nat} {sa sg sl sh : ByteSrc} {a g lo hi : Byte} {a1 a2 a3 a4 : Bool}
    {acks : List Bool} (hq : b.phy = ⟨none, false⟩) (he : b.env.acks = a1 :: a2 :: a3 :: a4 :: acks) (hn : r.step = n)
    (h : Segment r.prog n (tUvwr sa sg sl sh)) (ha : sa.eval r b = a) (hg : sg.eval r b = g) (hlo : sl.eval r b = lo)
    (hhi : sh.eval r b = hi) :
    runTurns (eager 20) (b.at r) = .next (advanceTo (n + 20) r (uvWritten a g lo hi a1 a2 a3 a4 acks b)) := by
  have hl : n + 20 ≤ r.prog.length := segment_le h (by simp [tUvwr, tStart])
  have u (k : Nat) (u : MuOp) (hk : (tUvwr sa sg sl sh)[k]? = some u) : r.prog[n + k]? = some u := segment_at h hk
  refine eager_seq (m := 2) (n := 18) (eager_cond (c := .start) hq hn (u 0 _ rfl) (u 1 _ rfl)) (by omega) ?_
  refine eager_seq (m := 4) (n := 14) (eager_write (n := n + 2) (src := sa) (x := a) (toRes := false) hq rfl
    (u 2 _ rfl) (u 3 _ rfl) (u 4 _ rfl) (u 5 _ rfl) (eval_of ha rfl rfl rfl rfl)) (by simp only; omega) ?_
  refine eager_seq (m := 4) (n := 10) (eager_write (n := n + 6) (src := sg) (x := g) (toRes := false) hq rfl
    (u 6 _ rfl) (u 7 _ rfl) (u 8 _ rfl) (u 9 _ rfl) (eval_of hg rfl rfl rfl rfl)) (by simp only; omega) ?_
  refine eager_seq (m := 4) (n := 6) (eager_write (n := n + 10) (src := sl) (x := lo) (toRes := false) hq rfl
    (u 10 _ rfl) (u 11 _ rfl) (u 12 _ rfl) (u 13 _ rfl) (eval_of hlo rfl rfl rfl rfl)) (by simp only; omega) ?_
  refine eager_seq (m := 4) (n := 2) (eager_write (n := n + 14) (src := sh) (x := hi) (toRes := false) hq rfl
    (u 14 _ rfl) (u 15 _ rfl) (u 16 _ rfl) (u 17 _ rfl) (eval_of hhi rfl rfl rfl rfl)) (by simp only; omega) ?_
  refine Eq.trans (eager_cond (n := n + 18) (c := .stop) hq rfl (u 18 _ rfl) (u 19 _ rfl)) ?_
  refine congrArg (fun y => Host.Outcome.next (advanceTo (n + 20) r y)) ?_
  simp [uvWritten, wroteByte, conditioned, Env.takeAck, he, Cond.framing, uvWriteTail, wrote, emitted, issued,
    plain, Cond.unframed, Cond.reopen, nack_one, nack_list]

/-- The eager effect of a register read transaction, but for the temporaries. -/
def uvRead (a g : Byte) (a1 a2 a3 : Bool) (b1 b2 : Byte) (acks : List Bool) (bytes : List Byte) (b : State) : State :=
  { b with
    ci := true
    ackstat := a3
    rxbuf := b2
    fs := .idle
    status.ack := a3
    diag.nack := b.diag.nack + nackCount [a1, a2, a3]
    env := { b.env with acks := acks, bytes := bytes }
    trace := b.trace ++ [emitted b.fs .start] ++ uvReadTail a g a1 a2 a3 b1 b2 }

/-- The eager effect of `T_UVRD(a, g)`. -/
theorem eager_uvrd {b : State} {r : Run} {n : Nat} {sa sg : ByteSrc} {a g : Byte} {a1 a2 a3 : Bool} {b1 b2 : Byte}
    {acks : List Bool} {bytes : List Byte} (hq : b.phy = ⟨none, false⟩) (he : b.env.acks = a1 :: a2 :: a3 :: acks)
    (hb : b.env.bytes = b1 :: b2 :: bytes) (hn : r.step = n)
    (h : Segment r.prog n (tUvrd sa sg)) (ha : sa.eval r b = a) (hg : sg.eval r b = g) :
    runTurns (eager 28) (b.at r) =
      .next (advanceTo (n + 28) { r with t0 := b1, t1 := b2 } (uvRead a g a1 a2 a3 b1 b2 acks bytes b)) := by
  have hl : n + 28 ≤ r.prog.length := segment_le h (by simp [tUvrd, tStart])
  have u (k : Nat) (u : MuOp) (hk : (tUvrd sa sg)[k]? = some u) : r.prog[n + k]? = some u := segment_at h hk
  refine eager_seq (m := 2) (n := 26) (eager_cond (c := .start) hq hn (u 0 _ rfl) (u 1 _ rfl)) (by omega) ?_
  refine eager_seq (m := 4) (n := 22) (eager_write (n := n + 2) (src := sa) (x := a) (toRes := false) hq rfl
    (u 2 _ rfl) (u 3 _ rfl) (u 4 _ rfl) (u 5 _ rfl) (eval_of ha rfl rfl rfl rfl)) (by simp only; omega) ?_
  refine eager_seq (m := 4) (n := 18) (eager_write (n := n + 6) (src := sg) (x := g) (toRes := false) hq rfl
    (u 6 _ rfl) (u 7 _ rfl) (u 8 _ rfl) (u 9 _ rfl) (eval_of hg rfl rfl rfl rfl)) (by simp only; omega) ?_
  refine eager_seq (m := 2) (n := 16) (eager_cond (n := n + 10) (c := .rstart) hq rfl (u 10 _ rfl) (u 11 _ rfl)) (by simp only; omega) ?_
  refine eager_seq (m := 4) (n := 12) (eager_write (n := n + 12) (src := .succ sa) (x := a + 1) (toRes := false) hq rfl
    (u 12 _ rfl) (u 13 _ rfl) (u 14 _ rfl) (u 15 _ rfl)
    (eval_of (congrArg readAddress ha : (ByteSrc.succ sa).eval r b = a + 1) rfl rfl rfl rfl)) (by simp only; omega) ?_
  refine eager_seq (m := 5) (n := 7) (eager_read (n := n + 16) (sa := true) (dst := .t0) hq rfl
    (u 16 _ rfl) (u 17 _ rfl) (u 18 _ rfl) (u 19 _ rfl) (u 20 _ rfl)) (by simp only [RxDst.temps]; omega) ?_
  refine eager_seq (m := 5) (n := 2) (eager_read (n := n + 21) (sa := false) (dst := .t1) hq rfl
    (u 21 _ rfl) (u 22 _ rfl) (u 23 _ rfl) (u 24 _ rfl) (u 25 _ rfl)) (by simp only [RxDst.temps]; omega) ?_
  refine Eq.trans (eager_cond (n := n + 26) (c := .stop) hq rfl (u 26 _ rfl) (u 27 _ rfl)) ?_
  have hr (y : State) (v : Run) : v.prog = r.prog → v.op = r.op → v.t0 = b1 → v.t1 = b2 → v.sda = r.sda →
      advanceTo (n + 28) v y = advanceTo (n + 28) { r with t0 := b1, t1 := b2 } y := by
    rintro h1 h2 h3 h4 h5
    unfold advanceTo
    simp only [h1, h2, h3, h4, h5]
  refine congrArg Host.Outcome.next (Eq.trans (hr _ _ ?_ ?_ ?_ ?_ ?_) ?_)
  rotate_left 5
  · refine congrArg (advanceTo (n + 28) _) ?_
    simp [uvRead, wroteByte, readByte, conditioned, Env.takeAck, Env.takeByte, he, hb, Cond.framing, uvReadTail, wrote,
      received, emitted, issued, plain, Cond.unframed, Cond.reopen, nack_one, nack_list, RxDst.result]
  · rfl
  · rfl
  · simp [RxDst.temps, wroteByte, readByte, conditioned, Env.takeAck, Env.takeByte, he, hb]
  · simp [RxDst.temps, wroteByte, readByte, conditioned, Env.takeAck, Env.takeByte, he, hb]
  · rfl

/-! ### The recovery segment, on a quiet PHY -/

/-- `n` SEQ steps, after each of which the PHY may take a turn (`withPhy`) or not. -/
def rounds (withPhy : Bool) : Nat → List Turn
  | 0 => []
  | n + 1 => (if withPhy then [.seq, .phy] else [.seq]) ++ rounds withPhy n

theorem rounds_eager (n : Nat) : rounds true n = eager n := by
  induction n with
  | zero => rfl
  | succ n ih => simp [rounds, eager, ih]

theorem rounds_stalled (n : Nat) : rounds false n = stalled n := by
  induction n with
  | zero => rfl
  | succ n ih => simp [rounds, stalled, ih, List.replicate_succ]

theorem rounds_add (p : Bool) (m n : Nat) : rounds p (m + n) = rounds p m ++ rounds p n := by
  induction m with
  | zero => simp [rounds]
  | succ m ih => rw [Nat.succ_add]; simp [rounds, ih]

/-- A SEQ step that leaves the PHY idle, then more of them. -/
theorem rounds_succ {p : Bool} {n : Nat} {s t : State} (h : seqStep s = t) (hq : t.phy = ⟨none, false⟩) :
    runTurns (rounds p (n + 1)) s = runTurns (rounds p n) t := by
  cases p <;> simp [rounds, h, phyStep_none hq]

theorem rounds_then {p : Bool} {m n : Nat} {s t : State} (h : runTurns (rounds p m) s = .next t) :
    runTurns (rounds p (m + n)) s = runTurns (rounds p n) t := by rw [rounds_add]; exact runTurns_append h

/-- One recovery pulse. -/
theorem rounds_pulse {p : Bool} {b : State} {r : Run} {n : Nat} (hq : b.phy = ⟨none, false⟩) (hn : r.step = n)
    (hl : n + 4 < r.prog.length) (h0 : r.prog[n]? = some (.sclDrive false)) (h1 : r.prog[n + 1]? = some (.delay Config.T_PHASE))
    (h2 : r.prog[n + 2]? = some (.sclDrive true)) (h3 : r.prog[n + 3]? = some (.delay Config.T_PHASE)) :
    runTurns (rounds p 4) (b.at r) = .next (({ b with
      pins.sclLevel := true, trace := b.trace ++ [plain (.scl false), plain (.scl true)] } : State).at (r.goto (n + 4))) := by
  subst hn
  rw [rounds_succ (t := ({ b with pins.sclLevel := false, trace := b.trace ++ [plain (.scl false)] } : State).at
      (r.goto (r.step + 1))) (by
        rw [seqStep_run (r := r) rfl h0, MuOp.run, advance, advanceTo_lt (by omega)]
        simp [driveScl, log, logFlagged, plain, hq]) hq,
    rounds_succ (t := ({ b with pins.sclLevel := false, trace := b.trace ++ [plain (.scl false)] } : State).at
      (r.goto (r.step + 2))) (by
        rw [seqStep_run (r := r.goto (r.step + 1)) rfl h1, MuOp.run, advance, advanceTo_lt (by simp only; omega)]) hq,
    rounds_succ (t := ({ b with
        pins.sclLevel := true, trace := b.trace ++ [plain (.scl false), plain (.scl true)] } : State).at
      (r.goto (r.step + 3))) (by
        rw [seqStep_run (r := r.goto (r.step + 2)) rfl h2, MuOp.run, advance, advanceTo_lt (by simp only; omega)]
        simp [driveScl, log, logFlagged, plain, hq]) hq,
    rounds_succ (t := ({ b with
        pins.sclLevel := true, trace := b.trace ++ [plain (.scl false), plain (.scl true)] } : State).at
      (r.goto (r.step + 4))) (by
        rw [seqStep_run (r := r.goto (r.step + 3)) rfl h3, MuOp.run, advance, advanceTo_lt (by simp only; omega)]) hq]
  rfl

/-- `m` recovery pulses. -/
theorem rounds_pulses {p : Bool} {b : State} {r : Run} {n : Nat} (m : Nat) (hq : b.phy = ⟨none, false⟩) (hn : r.step = n)
    (hi : r.iter = 0) (hl : n + 4 * m < r.prog.length) (hm : b.pins.sclLevel = true ∨ 0 < m)
    (h : ∀ k, k < m → r.prog[n + 4 * k]? = some (.sclDrive false) ∧ r.prog[n + 4 * k + 1]? = some (.delay Config.T_PHASE) ∧
      r.prog[n + 4 * k + 2]? = some (.sclDrive true) ∧ r.prog[n + 4 * k + 3]? = some (.delay Config.T_PHASE)) :
    runTurns (rounds p (4 * m)) (b.at r) = .next (({ b with
      pins.sclLevel := true, trace := b.trace ++ pulseRecords m } : State).at (r.goto (n + 4 * m))) := by
  induction m generalizing b r n with
  | zero =>
    have hr : r.goto (n + 4 * 0) = r := by subst hn; cases r; simp_all
    rw [hr]
    rcases hm with hm | hm
    · simp [rounds, pulseRecords, ← hm]
    · omega
  | succ m ih =>
    have h0 := h 0 (by omega)
    rw [show 4 * (m + 1) = 4 + 4 * m by omega]
    refine (rounds_then (rounds_pulse hq hn (by omega) h0.1 h0.2.1 h0.2.2.1 h0.2.2.2)).trans
      ((ih (n := n + 4) (by exact hq) rfl rfl (by show n + 4 + 4 * m < r.prog.length; omega) (.inl rfl) (fun k hk => ?_)).trans ?_)
    · have := h (k + 1) (by omega)
      rwa [show n + 4 * (k + 1) = n + 4 + 4 * k by omega] at this
    · simp [pulseRecords, Nat.add_assoc]

/-- The recovery segment where the first sample is high: two steps, no pulse, no pin change. -/
theorem rounds_recovery_high {p : Bool} {b : State} {r : Run} {sdas : List Bool} (hq : b.phy = ⟨none, false⟩)
    (hn : r.step = 0) (h : Segment r.prog 0 recovery) (he : b.env.sdas = true :: sdas) :
    runTurns (rounds p 2) (b.at r) = .next (advanceTo recoveryLength { r with sda := true } { b with
      status := { b.status with recovered := false, stuck := false }
      env := { b.env with sdas := sdas }
      trace := b.trace ++ [plain (.sda true)] }) := by
  have hl : 38 ≤ r.prog.length := by
    have h1 := segment_le h (by simp [recovery])
    have h2 : recovery.length = 38 := rfl
    omega
  have h0 : r.prog[0]? = some .sdaSample := by have := segment_at (k := 0) h rfl; simpa using this
  have h1 : r.prog[1]? = some (.brHigh recoveryLength) := by have := segment_at (k := 1) h rfl; simpa using this
  rw [rounds_succ (t := ({ b with env.sdas := sdas, trace := b.trace ++ [plain (.sda true)] } : State).at
      { r with step := 1, iter := 0, sda := true }) (by
        rw [seqStep_run (r := r) rfl (hn ▸ h0), MuOp.run, advance, advanceTo_lt (by simp only; omega)]
        simp [sampleSda, log, logFlagged, plain, hq, Env.takeSda, he, hn]) hq,
    rounds_succ (s := State.at _ _) (by rw [seqStep_run (r := { r with step := 1, iter := 0, sda := true }) rfl h1]) ?_]
  · refine congrArg Host.Outcome.next ?_
    simp only [MuOp.run, if_true, foundHigh]
    rfl
  · simp only [MuOp.run, if_true]
    rw [advanceTo_eq]
    exact hq

/-- The recovery segment where the first sample is low: 38 steps, RECOVERY_PULSES pulses, SCL given back, a second
sample, STUCK from it, and an open transaction abandoned. -/
theorem rounds_recovery_low {p : Bool} {b : State} {r : Run} {s1 : Bool} {sdas : List Bool} (hq : b.phy = ⟨none, false⟩)
    (hn : r.step = 0) (h : Segment r.prog 0 recovery) (he : b.env.sdas = false :: s1 :: sdas) :
    runTurns (rounds p 38) (b.at r) = .next (advanceTo recoveryLength { r with sda := s1 } { b with
      status := { b.status with recovered := true, stuck := !s1 }
      diag := { b.diag with recov := b.diag.recov + 1 }
      fs := .idle
      pins := { b.pins with sclOwner := restoredOwner b, sclLevel := true }
      env := { b.env with sdas := sdas }
      trace := b.trace ++ recoveryRecords (restoredOwner b) s1 ++ (if b.fs = .opened then [plain .abandon] else []) }) := by
  have hl : 38 ≤ r.prog.length := by
    have h1 := segment_le h (by simp [recovery])
    have h2 : recovery.length = 38 := rfl
    omega
  have u (k : Nat) (u : MuOp) (hk : recovery[k]? = some u) : r.prog[k]? = some u := by
    have := segment_at h hk; simpa using this
  have e0 : seqStep (b.at r) = ({ b with env.sdas := s1 :: sdas, trace := b.trace ++ [plain (.sda false)] } : State).at
      { r with step := 1, iter := 0, sda := false } := by
    rw [seqStep_run (r := r) rfl (hn ▸ u 0 _ rfl), MuOp.run, advance, advanceTo_lt (by simp only; omega)]
    simp [sampleSda, log, logFlagged, plain, hq, Env.takeSda, he, hn]
  have e1 : seqStep (({ b with env.sdas := s1 :: sdas, trace := b.trace ++ [plain (.sda false)] } : State).at
      { r with step := 1, iter := 0, sda := false }) =
      ({ b with env.sdas := s1 :: sdas, trace := b.trace ++ [plain (.sda false)] } : State).at
      { r with step := 2, iter := 0, sda := false } := by
    rw [seqStep_run (r := { r with step := 1, iter := 0, sda := false }) rfl (u 1 _ rfl), MuOp.run]
    simp only [Bool.false_eq_true, if_false, advance]
    rw [advanceTo_lt (by simp only; omega)]
  have e2 : seqStep (({ b with env.sdas := s1 :: sdas, trace := b.trace ++ [plain (.sda false)] } : State).at
      { r with step := 2, iter := 0, sda := false }) =
      ({ b with
        env.sdas := s1 :: sdas, trace := b.trace ++ [plain (.sda false), plain (.sclctl .gpio)],
        pins.sclOwner := .gpio } : State).at
      { r with step := 3, iter := 0, sda := false } := by
    rw [seqStep_run (r := { r with step := 2, iter := 0, sda := false }) rfl (u 2 _ rfl), MuOp.run]
    rw [advance, advanceTo_lt (by simp only; omega)]
    simp [takeScl, hq, log, logFlagged, plain]
  have e3 : seqStep (({ b with
        env.sdas := s1 :: sdas
        trace := b.trace ++ [plain (.sda false), plain (.sclctl .gpio)] ++ pulseRecords Config.RECOVERY_PULSES
        pins := { b.pins with sclOwner := .gpio, sclLevel := true } } : State).at
      { r with step := 35, iter := 0, sda := false }) =
      ({ b with
        env.sdas := s1 :: sdas
        trace := b.trace ++ [plain (.sda false), plain (.sclctl .gpio)] ++ pulseRecords Config.RECOVERY_PULSES
          ++ [plain (.sclctl (restoredOwner b))]
        pins := { b.pins with sclOwner := restoredOwner b, sclLevel := true } } : State).at
      { r with step := 36, iter := 0, sda := false } := by
    rw [seqStep_run (r := { r with step := 35, iter := 0, sda := false }) rfl (u 35 _ rfl), MuOp.run,
      advance, advanceTo_lt (by simp only; omega)]
    simp [restoreScl, restoredOwner, log, logFlagged, plain, hq]
  have e4 : seqStep (({ b with
        env.sdas := s1 :: sdas
        trace := b.trace ++ [plain (.sda false), plain (.sclctl .gpio)] ++ pulseRecords Config.RECOVERY_PULSES
          ++ [plain (.sclctl (restoredOwner b))]
        pins := { b.pins with sclOwner := restoredOwner b, sclLevel := true } } : State).at
      { r with step := 36, iter := 0, sda := false }) =
      ({ b with
        env.sdas := sdas
        trace := b.trace ++ recoveryRecords (restoredOwner b) s1
        pins := { b.pins with sclOwner := restoredOwner b, sclLevel := true } } : State).at
      { r with step := 37, iter := 0, sda := s1 } := by
    rw [seqStep_run (r := { r with step := 36, iter := 0, sda := false }) rfl (u 36 _ rfl), MuOp.run,
      advance, advanceTo_lt (by simp only; omega)]
    simp [sampleSda, Env.takeSda, recoveryRecords, log, logFlagged, plain, hq]
  show runTurns (rounds p (4 * Config.RECOVERY_PULSES + 3 + 1 + 1 + 1)) (b.at r) = _
  refine (rounds_succ e0 hq).trans ((rounds_succ e1 hq).trans ((rounds_succ e2 hq).trans ((rounds_then
    (rounds_pulses (n := 3) Config.RECOVERY_PULSES (by exact hq) rfl rfl ?_ (.inr (by decide)) fun k hk => ?_)).trans
    ((rounds_succ e3 hq).trans ((rounds_succ e4 hq).trans ((rounds_succ (seqStep_run rfl (u 37 _ rfl)) ?_).trans ?_))))))
  · show 35 < r.prog.length
    omega
  · refine ⟨u _ _ ?_, u _ _ ?_, u _ _ ?_, u _ _ ?_⟩ <;> (clear * - hk; revert k; decide)
  · rw [MuOp.run, advance, advanceTo_eq]
    cases b.fs <;> simp [finishRecovery, hq]
  · refine congrArg Host.Outcome.next ?_
    rw [MuOp.run, advance]
    unfold advanceTo
    cases b.fs <;>
      simp [finishRecovery, log, logFlagged, plain, hq, recoveryLength, Config.RECOVERY_PULSES]

end Sys2Proof.Machine
end

