-- ==== Sys2Proof/Tests/Slice0.lean ====
section
/-! SUPPORT. The model's own tests: the WellFormed smoke, the decoding of words written out from 30_encoding.md R92, one
step of each command against the vectors of 95_test_vectors.md, and a witness for the hypotheses of each obligation. -/

namespace Sys2Proof.Tests

open Sys2Proof.Machine

/-! ### WellFormed refuses an ill-formed term, once per check (R83, R91) -/

theorem test_instr_wellFormed : [Instr.nop, .init, .read true, .lSetAddr false, .uvRead, .cntInc].all Instr.wellFormed = true := by
  decide

theorem test_write_refuses : (Command.write 0x100).wellFormed = false ∧ (Command.write 0xFF).wellFormed = true := by decide
theorem test_init_refuses : (Command.init 0x100000000).wellFormed = false ∧ (Command.init 0xFFFFFFFF).wellFormed = true := by decide
theorem test_lSetMode_refuses : (Command.lSetMode 256).wellFormed = false := by decide
theorem test_lSetMt_refuses : (Command.lSetMt 256).wellFormed = false := by decide
theorem test_uvWrCfg_refuses :
    (Command.uvWrCfg 256 0 0 0).wellFormed = false ∧ (Command.uvWrCfg 0 256 0 0).wellFormed = false ∧
    (Command.uvWrCfg 0 0 256 0).wellFormed = false ∧ (Command.uvWrCfg 0 0 0 256).wellFormed = false := by decide
theorem test_uvRdReg_refuses :
    (Command.uvRdReg 256 0).wellFormed = false ∧ (Command.uvRdReg 0 256).wellFormed = false := by decide
theorem test_sw_refuses :
    (Line.sw .arg 0x100000000).wellFormed = false ∧ (Line.sw (.frame 13) 0).wellFormed = false ∧
    (Line.lw (.frame 13)).wellFormed = false ∧ (Line.lw (.frame 12)).wellFormed = true := by decide
theorem test_lb_refuses : (Line.lb 256).wellFormed = false ∧ (Line.lb 255).wellFormed = true := by decide
theorem test_probe_refuses : (Line.probe 256).wellFormed = false := by decide
theorem test_setUid_refuses :
    (Line.setUid 0 0 0 0 0 0 0 256).wellFormed = false ∧ (Line.setUid 256 0 0 0 0 0 0 0).wellFormed = false := by decide
theorem test_command_line_refuses :
    (Line.cmd (.write 256)).wellFormed = false ∧ (Line.callNw (.write 256)).wellFormed = false := by decide

/-! ### Decoding: every command's word of R92, written out; the rejected words of 95_test_vectors.md E1 to E11 -/

theorem test_decode_transport :
    decodeWord 0x00000000 = .ok .nop ∧ decodeWord 0x00000001 = .ok .init ∧ decodeWord 0x00000002 = .ok .deinit ∧
    decodeWord 0x00000003 = .ok .start ∧ decodeWord 0x00000004 = .ok .rstart ∧ decodeWord 0x00000005 = .ok .stop ∧
    decodeWord 0x00000006 = .ok .write ∧ decodeWord 0x00000107 = .ok (.read true) ∧
    decodeWord 0x00000007 = .ok (.read false) ∧ decodeWord 0x00000008 = .ok .recover := by decide
theorem test_decode_light :
    decodeWord 0x00000010 = .ok (.lSetAddr false) ∧ decodeWord 0x00000110 = .ok (.lSetAddr true) ∧
    decodeWord 0x00000011 = .ok .lSetMode ∧ decodeWord 0x00000012 = .ok .lSetMt ∧ decodeWord 0x00000013 = .ok .lRead := by
  decide
theorem test_decode_uv :
    decodeWord 0x00000020 = .ok .uvWrCfg ∧ decodeWord 0x00000021 = .ok .uvRdReg ∧ decodeWord 0x00000022 = .ok .uvStart ∧
    decodeWord 0x00000023 = .ok .uvRead := by decide
theorem test_decode_frame : decodeWord 0x00000030 = .ok .frBuild ∧ decodeWord 0x00000031 = .ok .cntInc := by decide
theorem test_decode_rejects :
    decodeWord 0x00000009 = .error .illegalOpcode ∧ decodeWord 0x00000103 = .error .reservedBits ∧
    decodeWord 0x00000109 = .error .illegalOpcode ∧ decodeWord 0x00000207 = .error .reservedBits ∧
    decodeWord 0x00000106 = .error .reservedBits ∧ decodeWord 0x000001FF = .error .illegalOpcode := by decide
theorem test_decode_bytes :
    decodeBytes [0x07, 0x01, 0x00, 0x00, 0xAA] = .ok (.read true, [0xAA]) ∧ decodeBytes [0x07, 0x01, 0x00] = .error .badAccess := by
  decide
theorem test_decodeTableWord :
    decodeTableWord 32 0x00000110 = some (.lSetAddr true) ∧ decodeTableWord 32 0x00000014 = none ∧
    decodeTableWord 8 0x31 = some .cntInc := by decide

/-- R92's argwords: UV.WRCFG of vector U1, UV.RDREG of U2. -/
theorem test_assemble_operands :
    assemble [.cmd (.uvWrCfg 0x20 0x00 0x10 0x00), .cmd (.uvRdReg 0x20 0x07)] =
      some [.write 0x08 .word 0x00100020, .write 0x0C .word 0x20, .waitDone,
        .write 0x08 .word 0x00000720, .write 0x0C .word 0x21, .waitDone] := by decide
theorem test_assemble_pseudo :
    assemble [.clrStat, .setUid 0x6E 0xDA 0x82 0x33 0x33 0x66 0xF5 0xE6, .waitMs 180, .lb 0xB2] =
      some [.write 0x04 .word 0x718, .write 0x24 .word 0x3382DA6E, .write 0x28 .word 0xE6F56633, .waitMs 180,
        .read 0xB2 .byte] := by decide
/-- R208, every step taken, in its order. -/
theorem test_boot_all_steps :
    (bootLines ⟨some ⟨true, 2, true⟩, 100000, false, some true, some 0x45, 2,
      ⟨0x6E, 0xDA, 0x82, 0x33, 0x33, 0x66, 0xF5, 0xE6⟩, 5⟩).flatMap Line.ops =
      [.write 0x00 .word 0xD,
       .write 0x08 .word 100000, .write 0x0C .word 0x01, .waitDone, .write 0x0C .word 0x08, .waitDone,
       .write 0x0C .word 0x110, .waitDone, .write 0x0C .word 0x22, .waitDone,
       storeWord .arg Config.LIGHT_CMD_CONT_H.toNat, .write 0x0C .word 0x11, .waitDone,
       .write 0x08 .word 0x45, .write 0x0C .word 0x12, .waitDone,
       .write 0x20 .word 2, .write 0x24 .word 0x3382DA6E, .write 0x28 .word 0xE6F56633, .write 0x2C .word 5] := rfl

/-- R208 without its optional steps, steps 2 and 3 swapped. -/
theorem test_boot_swapped :
    (bootLines ⟨none, 1, true, none, none, 0, ⟨0, 0, 0, 0, 0, 0, 0, 0⟩, 0⟩).take 2 = [.cmd .recover, .cmd (.init 1)] := rfl

theorem test_assemble_error : assemble [.cmd .nop, .cmd (.write 256)] = none := by decide
theorem test_disassemble : disassemble 0x00000021 0x00000720 = some (.uvRdReg 0x20 0x07) := by decide

/-! ### Small states -/

/-- After INIT: the PHY holds the lines. LADDR is instance G's, STRAP = 0. -/
def ready : State := { State.reset with initd := true, pins := ⟨.phy, false, .phy⟩, laddr := 0x46 }

/-- `s` with command `op` at micro-op `n`, and the temporaries `t0`, `t1`. -/
def atStep (s : State) (op : Instr) (n : Nat) (t0 t1 : Byte) : State :=
  { s with seq := .run { Run.fresh op (program op) with step := n, t0 := t0, t1 := t1 } }

/-- `s` with acknowledge bits, bytes and data-line samples to come. -/
def env (s : State) (acks : List Bool) (bytes : List Byte) (sdas : List Bool) : State :=
  { s with env := ⟨acks, bytes, sdas, [], 0⟩ }

/-- STATUS after the host's write of `v` at `off`. -/
def statusAfter (s : State) (off : Byte) (width : Width) (v : Word) : Option Word :=
  match hostWrite off width v s with
  | .next t => some (statusWord t)
  | .fault _ => none
  | .refused _ => none

/-! ### The host port: 95_test_vectors.md section 2.5 -/

theorem test_E1 : statusAfter State.reset 0x0C .word 0x09 = some 0x1100 := by decide
theorem test_E2 : statusAfter State.reset 0x0C .word 0x103 = some 0x2100 := by decide
theorem test_E3 : statusAfter State.reset 0x0C .word 0x109 = some 0x1100 := by decide
theorem test_E6 : statusAfter State.reset 0x08 .byte 5 = some 0x5100 := by decide
theorem test_E7 :
    statusAfter { State.reset with status := { State.reset.status with err := true, errcode := .illegalOpcode } } 0x0C .word
      0x03 = some 0x1300 := by decide
theorem test_E8 :
    statusAfter { State.reset with status := { State.reset.status with err := true, errOvf := true, errcode := .illegalOpcode } }
      0x04 .word 0x718 = some 0 := by decide
theorem test_E9 : statusAfter ready 0x0C .word 0x207 = some 0x2102 := by decide
theorem test_E11 : statusAfter ready 0x0C .word 0x1FF = some 0x1102 := by decide
theorem test_E12 : statusAfter (atStep ready .recover 1 0 0) 0x0C .word 0x09 = some 0x403 := by decide

/-- R22, R42: CTRL keeps bits [3:0], SWVER its low byte. -/
theorem test_reserved_bits :
    windowWord (writeReg .ctrl 0xFFFFFFFE State.reset) 0x00 = 0xE ∧
    windowWord (writeReg .swver 0x12345678 State.reset) 0x2C = 0x78 := by decide

/-! ### One step of each command -/

theorem test_nop : exec .nop State.reset = .next State.reset := rfl

/-- T1. -/
theorem test_init : (seqStep { atStep State.reset .init 0 0 0 with argLatch := 100000 }).clkHz = 0x186A0 ∧
    statusWord (seqStep (atStep State.reset .init 0 0 0)) = 0x2 := by decide
/-- E5. -/
theorem test_init_zero_clock : statusAfter State.reset 0x0C .word 0x01 = some 0x4100 := by decide

/-- T2. -/
theorem test_deinit : statusWord (seqStep (atStep { ready with clkHz := 100000 } .deinit 0 0 0)) = 0 ∧
    (seqStep (atStep { ready with clkHz := 100000 } .deinit 0 0 0)).clkHz = 100000 := by decide

/-- T3, E4. -/
theorem test_start_not_init : statusAfter State.reset 0x0C .word 0x03 = some 0x3100 := by decide
/-- T6: START while a transaction is open. -/
theorem test_start_reopen :
    (seqStep (atStep { ready with fs := .opened } .start 1 0 0)).trace = [⟨.cond .start, ⟨false, true, false⟩⟩] := by decide

/-- T6. -/
theorem test_rstart_unframed :
    (seqStep (atStep ready .rstart 1 0 0)).trace = [⟨.cond .rstart, ⟨true, false, false⟩⟩] ∧
    statusWord (seqStep (atStep ready .rstart 1 0 0)) = 0x10002 := by decide

/-- T8: STOP on a PHY that is still busy collides; FS_OPEN falls all the same. -/
theorem test_stop_collides :
    (seqStep (atStep { ready with fs := .opened, phy := ⟨some (.tx 0x46), false⟩ } .stop 1 0 0)).trace =
      [⟨.collision (.cond .stop), ⟨false, false, false⟩⟩] ∧
    statusWord (seqStep (atStep { ready with fs := .opened, phy := ⟨some (.tx 0x46), false⟩ } .stop 1 0 0)) = 0x32 := by
  decide

/-- T5: the NACK of WRITE's capture. -/
theorem test_write_nack :
    statusWord (seqStep (atStep { ready with ackstat := true } .write 3 0 0)) = 0x6 ∧
    (seqStep (atStep { ready with ackstat := true } .write 3 0 0)).res = 1 ∧
    (seqStep (atStep { ready with ackstat := true } .write 3 0 0)).diag.nack = 1 := by decide
/-- T8: the poll that exhausts WRITE's wait. -/
theorem test_write_timeout :
    (seqStep { ready with seq := .run { Run.fresh .write writeProgram with step := 2, iter := 149 } }).diag.tmo = 1 ∧
    (seqStep { ready with seq := .run { Run.fresh .write writeProgram with step := 2, iter := 148 } }).diag.tmo = 0 := by
  decide

/-- T7: READ ACK drives 0, READ NACK drives 1. -/
theorem test_read_drives :
    (seqStep (atStep ready (.read true) 4 0 0)).phy.pending = some (.ackdrv false) ∧
    (seqStep (atStep ready (.read false) 4 0 0)).phy.pending = some (.ackdrv true) := by decide
/-- T7: RES = 0x34. -/
theorem test_read_captures : (seqStep (atStep { ready with rxbuf := 0x34 } (.read true) 3 0 0)).res = 0x34 := by decide

/-- T13: a high sample skips 36 micro-ops: the next is none, RECOVER ends. -/
theorem test_recover_high :
    seqStep { ready with seq := .run { Run.fresh .recover recoverProgram with step := 1, sda := true } } =
      { ready with seq := .idle } := by rfl
/-- T11: REC_FINISH with the line still low. -/
theorem test_recover_finish :
    statusWord (seqStep (atStep ready .recover 37 0 0)) = 0xC2 ∧ (seqStep (atStep ready .recover 37 0 0)).diag.recov = 1 := by
  decide

/-- L1. -/
theorem test_lSetAddr :
    (seqStep (atStep ready (.lSetAddr true) 0 0 0)).laddr = Config.LIGHT_ADDR_HI ∧
    (seqStep (atStep ready (.lSetAddr false) 0 0 0)).laddr = Config.LIGHT_ADDR_LO := ⟨rfl, rfl⟩

/-- L8: an invalid mode byte is sent as it is. -/
theorem test_lSetMode :
    (seqStep (atStep { ready with argLatch := 0x1FF, fs := .opened } .lSetMode 7 0 0)).phy.pending = some (.tx 0xFF) := by
  decide

/-- L4's table without its prefixes, v = 0x45, 0x20, 0x1F. -/
theorem test_lSetMt_fields :
    mtHiField 0x45 = 2 ∧ mtLoField 0x45 = 5 ∧ mtcHiField 0x45 = 1 ∧ mtcLoField 0x45 = 1 ∧ mtHiField 0x20 = 1 ∧
    mtLoField 0x20 = 0 ∧ mtcLoField 0x20 = 1 ∧ mtLoField 0x1F = 0x1F ∧ mtcHiField 0x1F = 0 := by decide

/-- L5: the first byte is the most significant. -/
theorem test_lRead : (seqStep (atStep ready .lRead 18 0x12 0x34)).light = 0x1234 ∧
    (seqStep (atStep ready .lRead 18 0x12 0x34)).res = 0x1234 := by decide
/-- L5: the read address. -/
theorem test_lRead_address : (seqStep (atStep ready .lRead 3 0 0)).phy.pending = some (.tx 0x47) := by decide

/-- U1: the third byte sent is ARG[23:16]. -/
theorem test_uvWrCfg :
    (seqStep (atStep { ready with argLatch := 0x00100020 } .uvWrCfg 11 0 0)).phy.pending = some (.tx 0x10) := by decide

/-- U2: the first byte is the least significant; UVA is not written. -/
theorem test_uvRdReg : (seqStep (atStep ready .uvRdReg 28 0x34 0x12)).res = 0x1234 ∧
    (seqStep (atStep ready .uvRdReg 28 0x34 0x12)).uva = 0 := by decide
/-- U4: the read address wraps. -/
theorem test_uvRdReg_address :
    (seqStep (atStep { ready with argLatch := 0x07FF } .uvRdReg 13 0 0)).phy.pending = some (.tx 0x00) := by decide

/-- U5, with UV_IT = 3 and UV_HD = 1. -/
theorem test_uvStart :
    uvConfigWord 3 true = Config.device.uvIt3 ||| Config.device.uvHdMask ∧ uvConfigWord 0 false = Config.device.uvIt0 ||| 0 :=
  ⟨rfl, rfl⟩

/-- U7: UVA and RES after the first register read. -/
theorem test_uvRead : (seqStep (atStep ready .uvRead 66 0x01 0x02)).uva = 0x0201 ∧
    (seqStep (atStep ready .uvRead 66 0x01 0x02)).res = 0x0201 := by decide +kernel

/-- The registers of 43_frame.md R178. -/
def exampleInputs : State :=
  { State.reset with
    nodeType := 2, uid0 := 0x3382DA6E, uid1 := 0xE6F56633, swver := 5, cnt := 1, batt := 800, temp := 512, uva := 10
    uvb := 20, comp1 := 30, comp2 := 40, light := 1000 }

/-- R178: bytes 0 to 47 of the source's example. -/
theorem test_frBuild :
    frameBody exampleInputs =
      [0x32, 0x00, 0x02, 0x6E, 0xDA, 0x82, 0x33, 0x33, 0x66, 0xF5, 0xE6, 0x05, 0x00, 0x00, 0x00, 0x01,
       0x03, 0x20, 0x02, 0x00, 0x00, 0x00, 0x00, 0x00, 0x00, 0x0A, 0x00, 0x14, 0x00, 0x1E, 0x00, 0x28,
       0x03, 0xE8, 0x00, 0x00, 0x00, 0x00, 0x00, 0x00, 0x00, 0x00, 0x00, 0x00, 0x00, 0x00, 0x00, 0x00] := by decide
/-- R179 and the reads after F2: the window's view of R178's bytes 0 to 47. -/
theorem test_frame_window :
    let s : State := { exampleInputs with frame := Memory.writeBytes [] FRAME_BASE (frameBody exampleInputs) }
    hostReadValue s 0x8C .word = 0x01000000 ∧ hostReadValue s 0x82 .half = 0x6E02 ∧ hostReadValue s 0x80 .byte = 0x32 ∧
    hostReadValue s 0x82 .word = 0 ∧ hostReadValue s 0x9C .word = 0x28001E00 ∧ hostReadValue s 0x5C .word = 0 := by
  decide +kernel

/-- F4. -/
theorem test_cntInc : (seqStep (atStep { State.reset with cnt := 0xFFFFFFFF } .cntInc 0 0 0)).cnt = 0 := by decide

/-! ### Witnesses: a state and operands that meet an obligation's hypotheses together -/

/-- An idle block with host accesses to come. -/
def hostNext (l : List HostOp) : State := { ready with host := l, sched := [.host] }

/-- A block whose command `op` is at micro-op `n`, poll `k`, with a transfer in flight or none. -/
def polling (op : Instr) (n k : Nat) (pending : Option PhyOp) : State :=
  { ready with phy := ⟨pending, false⟩, seq := .run { Run.fresh op (program op) with step := n, iter := k } }

/-- A poisoned block in the middle of a command. -/
def poisonedAt (op : Instr) (n : Nat) : State := { atStep ready op n 0 0 with phy := ⟨none, true⟩ }

theorem witness_TableRowsAgreeWithDecoder :
    ⟨"READ", 0x00000007, 0xFFFFFEFF⟩ ∈ opcodeTable ∧
    (⟨"READ", 0x00000007, 0xFFFFFEFF⟩ : TableRow).hits 0x00000107 = true := by decide

theorem witness_AssembledCommandReadsBack :
    (Command.uvWrCfg 255 0 255 1).wellFormed = true ∧
    (∀ v, Command.argword (.uvWrCfg 255 0 255 1) = some v → 0x01FF00FF = BitVec.ofNat 32 v) ∧
    (Command.init 0xFFFFFFFF).wellFormed = true := by
  refine ⟨by decide, fun v h => ?_, by decide⟩
  obtain rfl := Option.some.inj h
  decide

/-- The first and the last value of each unassigned range, and words that RESERVED_BITS rejects. -/
theorem witness_RejectedWordOnlyRecordsError :
    (∀ w ∈ [0x09, 0x0F, 0x14, 0x1F, 0x24, 0x2F, 0x32, 0xFF, 0x109],
      let n := (opcField (BitVec.ofNat 32 w)).toNat
      (0x09 ≤ n ∧ n ≤ 0x0F) ∨ (0x14 ≤ n ∧ n ≤ 0x1F) ∨ (0x24 ≤ n ∧ n ≤ 0x2F) ∨ 0x32 ≤ n) ∧
    ∀ w ∈ [0x103, 0x106, 0x207, 0x200, 0x80000031, 0x310],
      let n := (opcField (BitVec.ofNat 32 w)).toNat
      ¬ ((0x09 ≤ n ∧ n ≤ 0x0F) ∨ (0x14 ≤ n ∧ n ≤ 0x1F) ∨ (0x24 ≤ n ∧ n ≤ 0x2F) ∨ 0x32 ≤ n) ∧
      (rsvField (BitVec.ofNat 32 w) ≠ 0 ∨ (flagField (BitVec.ofNat 32 w) = true ∧ n ≠ 0x07 ∧ n ≠ 0x10)) := by decide

theorem witness_StepRunsDecodedCommand :
    whoseTurn (hostNext [.write 0x0C .word 0x107]) = .host ∧ (hostNext [.write 0x0C .word 0x107]).seq = .idle ∧
    (hostNext [.write 0x0C .word 0x107]).host = [.write 0x0C .word 0x107] ∧
    (hostNext [.write 0x0C .word 0x107]).sched = [.host] ∧ decodeWord 0x107 = .ok (.read true) := by decide

theorem witness_HostWriteWhileBusyIsDropped : (atStep ready .write 2 0 0).busy = true := by decide

/-- A narrow aligned write, a misaligned 4-byte write, misaligned and aligned reads at the window's edges. -/
theorem witness_AccessWidthsAndByteOrder :
    ready.busy = false ∧ (Width.byte ≠ .word ∨ (0x08 : Byte).toNat % 4 ≠ 0) ∧
    (Width.word ≠ .word ∨ (0x0A : Byte).toNat % 4 ≠ 0) ∧
    (0xFF : Byte).toNat % Width.bytes .half ≠ 0 ∧ (0xFD : Byte).toNat % Width.bytes .word ≠ 0 ∧
    (0xFF : Byte).toNat % Width.bytes .byte = 0 ∧ (0xFE : Byte).toNat % Width.bytes .half = 0 ∧
    (0xFC : Byte).toNat % Width.bytes .word = 0 ∧ 63 < 64 ∧ 3 < 4 := by decide

theorem witness_StatusWriteClearsNamedBits : ready.busy = false := by decide

theorem witness_ReservedAndReadOnlyIgnoreWrites :
    (∀ a ∈ ([0x5C, 0x7F, 0xB4, 0xFF] : List Byte), (0x5C ≤ a.toNat ∧ a.toNat < 0x80) ∨ 0xB4 ≤ a.toNat) ∧ ready.busy = false ∧
    (∀ a ∈ [0x10, 0x18, 0x4C, 0x58, 0x5C, 0x80, 0xB0, 0xFC],
      (BitVec.ofNat 8 a).toNat % 4 = 0 ∧
        ((0x10 ≤ (BitVec.ofNat 8 a).toNat ∧ (BitVec.ofNat 8 a).toNat < 0x1C) ∨ 0x4C ≤ (BitVec.ofNat 8 a).toNat)) ∧
    (12 ≤ 15 → 15 < 16 → (0x200 : Word).getLsbD 8 = false) ∧
    ∀ k ∈ [0, 1, 2, 5, 6, 7, 11, 16, 17, 31],
      k ≠ 3 ∧ k ≠ 4 ∧ k ≠ 8 ∧ k ≠ 9 ∧ k ≠ 10 ∧ (12 ≤ k → k < 16 → (0x100 : Word).getLsbD 8 = false) := by decide

theorem witness_ReadWriteRegistersKeepUsedBits : ready.busy = false ∧ 31 < 32 ∧ 0x04 ≠ 0x00 := by decide

theorem witness_FrameWindowIsLittleEndian : FrameOk State.reset := by
  refine ⟨reset_frame_wf, ?_, fun _ => rfl, ?_⟩
  · exact fun c hc => absurd hc List.not_mem_nil
  · exact fun h => absurd h (by decide)

theorem witness_SecondCmdErrorKeepsFirstCode :
    State.reset.status.err = false ∧ (raiseCmdError .badArg State.reset).status.err = true := by decide

theorem witness_CmdErrorPriority :
    (atStep ready .write 2 0 0).busy = true ∧ State.reset.busy = false ∧ State.reset.initd = false ∧
    (Width.half ≠ .word ∨ (0x0C : Byte).toNat % 4 ≠ 0) ∧ opcodeMap (opcField 0x09).toNat = none ∧
    (match opcodeMap (opcField 0x103).toNat with
      | some row => flagField 0x103 = true ∧ row.hasF = false
      | none => False) ∧
    decodeWord 0x03 = .ok .start ∧ needsInit .start = true ∧ decodeWord 0x01 = .ok .init ∧ State.reset.arg = 0 := by
  refine ⟨by decide, by decide, by decide, by decide, by decide, ?_, by decide, by decide, by decide, by decide⟩
  exact ⟨by decide, rfl⟩

theorem witness_BusCommandsNeedInit :
    State.reset.initd = false ∧ State.reset.argLatch = 0 ∧ { State.reset with argLatch := 100000 }.argLatch ≠ 0 := by decide

theorem witness_LaunchFrame : exec .start State.reset = .next (raiseCmdError .notInit State.reset) := rfl

/-- INIT's hypotheses, with a transfer in flight and a transaction open, and at the least clock. -/
theorem witness_InitResetsThePhy :
    let s : State := { ready with argLatch := 1, phy := ⟨some .rx, false⟩, fs := .opened }
    s.seq = .idle ∧ s.argLatch ≠ 0 := by decide

/-- DEINIT, L.SETADDR and CNT.INC ask only for an idle sequencer; FR.BUILD for a canonical frame memory too. -/
theorem witness_idle_commands : State.reset.seq = .idle ∧ State.reset.frame.wf := ⟨rfl, reset_frame_wf⟩

theorem witness_ConditionsFrameTheBus : ready.quiet ∧ ready.initd = true := ⟨⟨rfl, rfl⟩, rfl⟩

/-- One state with all of ENV's answers for the bus commands: WRITE, READ, L.SETMODE, L.SETMT, L.READ, UV.WRCFG, UV.RDREG,
UV.START and UV.READ take the first answers of each list. -/
theorem witness_bus_commands :
    let s : State := env ready [true, false, true, false, true, false, true, false, true, false, true, false]
      [1, 2, 3, 4, 5, 6, 7, 8] [false, true]
    s.quiet ∧ s.initd = true ∧ s.env.acks = true :: false :: true :: false :: true :: false :: true :: false :: true ::
      false :: true :: false :: [] ∧ s.env.bytes = 1 :: 2 :: 3 :: 4 :: 5 :: 6 :: 7 :: 8 :: [] ∧
    s.env.sdas = false :: true :: [] := ⟨⟨rfl, rfl⟩, rfl, rfl, rfl, rfl⟩

/-- RECOVER, without INIT, with each first sample. -/
theorem witness_RecoverPulsesAStuckBus :
    (env State.reset [] [] [true]).quiet ∧ (env State.reset [] [] [true]).env.sdas = true :: [] ∧
    (env State.reset [] [] [false, false]).quiet ∧ (env State.reset [] [] [false, false]).env.sdas = false :: false :: [] :=
  ⟨⟨rfl, rfl⟩, rfl, ⟨rfl, rfl⟩, rfl⟩

/-- A wait that is seen, one that polls again at its last but one poll, one that is exhausted. -/
theorem witness_WaitPollsOncePerStep :
    (program .start)[0]? = some .waitIdle ∧ (polling .start 0 0 none).phy.pending = none ∧
    (polling .start 0 148 (some .rx)).phy.pending ≠ none ∧ 148 + 1 < Config.RETRY_MAX ∧ ¬ 149 + 1 < Config.RETRY_MAX ∧
    (program .write)[2]? = some .waitCi := by decide

/-- A wait for idle with a transfer in flight, and a wait for completion with S.ci = 0. -/
theorem witness_WaitExhaustsAfterRetryMaxPolls :
    (program .write)[2]? = some .waitCi ∧ (polling .write 2 0 (some (.tx 0))).ci = false ∧
    (polling .write 2 0 (some (.tx 0))).seq = .run { Run.fresh .write (program .write) with step := 2 } ∧
    (polling .write 2 0 (some (.tx 0))).phy.poisoned = false ∧
    (polling .start 0 0 (some .rx)).seq = .run (Run.fresh .start (program .start)) ∧
    (Run.fresh .start (program .start)).prog[0]? = some .waitIdle ∧ (Run.fresh .start (program .start)).iter = 0 ∧
    (polling .start 0 0 (some .rx)).phy.poisoned = false ∧ (polling .start 0 0 (some .rx)).phy.pending ≠ none := by decide

theorem witness_WriteTimesOutWithStaleAck :
    let s : State := { ready with ackstat := true, fs := .opened }
    s.quiet ∧ s.initd = true := ⟨⟨rfl, rfl⟩, rfl⟩

/-- T9: READ's ACKDRV still in flight. -/
theorem witness_WriteOnBusyPhyCollides :
    let s : State := { ready with phy := ⟨some (.ackdrv false), false⟩ }
    s.seq = .idle ∧ s.initd = true ∧ s.phy = ⟨some (.ackdrv false), false⟩ := ⟨rfl, rfl, rfl⟩

theorem witness_PhyCompletesTheTransfer :
    (poisonedAt .write 2).phy.poisoned = true ∧ (polling .write 2 0 (some (.tx 0x46))).phy.poisoned = false ∧
    (polling .write 2 0 (some (.tx 0x46))).phy.pending = some (.tx 0x46) ∧
    (polling (.read true) 2 0 (some .rx)).phy.pending = some .rx ∧
    (polling .start 0 0 (some (.ackdrv true))).phy.pending = some (.ackdrv true) := by decide

theorem witness_IssueConditionAndCollision :
    (poisonedAt .write 1).phy.poisoned = true ∧ (polling .write 1 0 (some .rx)).phy.poisoned = false ∧
    (polling .write 1 0 (some .rx)).phy.pending ≠ none ∧ ready.phy = ⟨none, false⟩ := by decide

theorem witness_PoisonedPhyAnswersAreDraws : (poisonedAt .stop 1).phy.poisoned = true := by decide

/-- The invariants hold together in a state in the middle of a recovery, and its step answers a next state. -/
theorem witness_invariants :
    let s : State := { atStep ready .recover 3 0 0 with pins := ⟨.gpio, false, .phy⟩, sched := [.seq] }
    SequencerOk s ∧ BusOk s ∧ SclOk s ∧ RecordOk s ∧ FrameOk s ∧ step s = .next (seqStep { s with sched := [] }) := by
  refine ⟨?_, ⟨by decide, by decide, by decide⟩, fun _ => ⟨_, rfl, .inl rfl, by decide, by decide⟩, ⟨by decide, by decide, by decide⟩,
    ⟨reset_frame_wf, ?_, fun _ => rfl, ?_⟩, rfl⟩
  · rintro r h
    obtain rfl := Sequencer.run.inj h
    exact ⟨rfl, by decide, by decide⟩
  · exact fun c hc => absurd hc List.not_mem_nil
  · exact fun h => absurd h (by decide)

/-- A SEQ turn that writes registers, a PHY turn, a HOST turn. -/
theorem witness_turns :
    agentStep .seq (atStep ready .lRead 18 0x12 0x34) = .next (seqStep (atStep ready .lRead 18 0x12 0x34)) ∧
    agentStep .phy (polling .write 2 0 (some (.tx 1))) = .next (phyStep (polling .write 2 0 (some (.tx 1)))) ∧
    agentStep .host (hostNext [.read 0x04 .word]) = .next (hostRead 0x04 .word (hostNext [])) ∧
    Turn.seq ≠ .reset ∧ Turn.phy ≠ .reset ∧ Turn.host ≠ .reset := ⟨rfl, rfl, rfl, by decide, by decide, by decide⟩

/-- A SEQ turn that writes LIGHT, one that exhausts a wait at its last poll, one that collides, and HOST turns that drop a
write and that record an error over an error. -/
theorem witness_OnlyNamedWritersChangeRegisters :
    SequencerOk (atStep ready .lRead 18 0x12 0x34) ∧
    (SequencerOk (polling .start 0 149 (some .rx)) ∧ (polling .start 0 149 (some .rx)).status.tmo = false ∧
      (seqStep (polling .start 0 149 (some .rx))).status.tmo = true) ∧
    (SequencerOk (polling .write 1 0 (some .rx)) ∧ (polling .write 1 0 (some .rx)).status.coll = false ∧
      (seqStep (polling .write 1 0 (some .rx))).status.coll = true ∧
      (seqStep (polling .write 1 0 (some .rx))).phy.poisoned = true) ∧
    (hostWrite 0x08 .word 0 (polling .write 1 0 none) =
      .next { polling .write 1 0 none with status := { ready.status with wwb := true } }) ∧
    (raiseCmdError .badAccess (raiseCmdError .notInit State.reset)).status.errOvf = true := by
  refine ⟨?_, ⟨?_, rfl, by decide⟩, ⟨?_, rfl, by decide, by decide⟩, rfl, rfl⟩
  all_goals
    rintro r h
    obtain rfl := Sequencer.run.inj h
    exact ⟨rfl, by decide, by decide⟩

theorem witness_EveryCommandEnds :
    (∃ r, (atStep ready .cntInc 0 0 0).seq = .run r ∧ SequencerOk (atStep ready .cntInc 0 0 0) ∧
      r.prog.length * Config.RETRY_MAX ≤ (stalled Config.RETRY_MAX).count .seq) ∧
    Turn.reset ∉ stalled Config.RETRY_MAX := by
  refine ⟨⟨_, rfl, ?_, ?_⟩, ?_⟩
  · rintro r h
    obtain rfl := Sequencer.run.inj h
    exact ⟨rfl, by decide, by decide⟩
  · rw [stalled, List.count_replicate_self]
    decide
  · simp [stalled]

theorem witness_BusOperationsFollowTheProgram :
    ∃ t u, ready.seq = .idle ∧ exec .start ready = .next t ∧ t.busy = true ∧ (∀ x ∈ eager 2, x = .seq ∨ x = .phy) ∧
      runTurns (eager 2) t = .next u ∧ u.seq = .idle := ⟨_, _, rfl, rfl, rfl, by decide, rfl, rfl⟩

theorem witness_RecoveryDrivesExactlyEightPulses :
    (∃ t u, exec .recover (env ready [] [] [true]) = .next t ∧ t.busy = true ∧ runTurns (stalled 2) t = .next u ∧
      u.seq = .idle) ∧
    ∃ t u, exec .recover (env ready [] [] [false, true]) = .next t ∧ t.busy = true ∧
      runTurns (stalled 38) t = .next u ∧ u.seq = .idle ∧ ∀ x ∈ stalled 38, x = .seq ∨ x = .phy :=
  ⟨⟨_, _, rfl, rfl, rfl, rfl⟩, ⟨_, _, rfl, rfl, rfl, rfl, by decide⟩⟩

/-- Constants that meet the requirements (instance G), and equal words at the last selection. -/
theorem witness_UvConfigWordDeterminesSelections :
    Config.instanceG.ok = true ∧ uvConfigWordOf Config.instanceG 3 true = 0x48 ∧ uvConfigWord 3 true = uvConfigWord 3 true :=
  ⟨by decide, by decide, rfl⟩

/-- READ's ACKDRV still in flight when RECOVER, or UV.READ, begins, with each first sample. -/
theorem witness_RecoveryDuringATransferCollides :
    ∀ l ∈ [[true], [false], [false, true]],
      let s : State := { env ready [] [] l with phy := ⟨some (.ackdrv false), false⟩ }
      s.seq = .idle ∧ s.initd = true ∧ s.phy = ⟨some (.ackdrv false), false⟩ ∧ s.env.sdas = l := by decide

theorem witness_FrBuildIsIdempotent :
    State.reset.seq = .idle ∧ State.reset.frame.wf ∧
    ∃ t u, (∃ s1, exec .frBuild State.reset = .next s1 ∧ runTurns [.seq] s1 = .next t) ∧
      ∃ t1, exec .frBuild t = .next t1 ∧ runTurns [.seq] t1 = .next u :=
  ⟨rfl, reset_frame_wf, _, _, ⟨_, rfl, rfl⟩, _, rfl, rfl⟩

end Sys2Proof.Tests
end

section
/-! SUPPORT. What one SEQ step can do, said once per part of the state: the sequencer (`SeqMoves`), STATUS with the
diagnostic counters (`Records`), the bus (`BusMoves`), the trace (`Logs`), the results (`MuOp.results`), the latches, and
what the host alone writes (`State.inputs`). The invariants and the rules of the whole machine are read off these. -/

namespace Sys2Proof.Machine

/-! ### The run record inside one SEQ step -/

@[simp] theorem captureRx_op (dst : RxDst) (r : Run) (s : State) : (captureRx dst r s).1.op = r.op := by cases dst <;> rfl
@[simp] theorem captureRx_prog (dst : RxDst) (r : Run) (s : State) : (captureRx dst r s).1.prog = r.prog := by
  cases dst <;> rfl
@[simp] theorem captureRx_step (dst : RxDst) (r : Run) (s : State) : (captureRx dst r s).1.step = r.step := by
  cases dst <;> rfl
@[simp] theorem temps_op (e : SetOp) (r : Run) (s : State) : (e.temps r s).op = r.op := by cases e <;> rfl
@[simp] theorem temps_prog (e : SetOp) (r : Run) (s : State) : (e.temps r s).prog = r.prog := by cases e <;> rfl
@[simp] theorem temps_step (e : SetOp) (r : Run) (s : State) : (e.temps r s).step = r.step := by cases e <;> rfl

/-- CAP_RX draws or reads the buffer and writes RES where its destination is RES. -/
@[simp] theorem captureRx_state (dst : RxDst) (r : Run) (s : State) :
    (captureRx dst r s).2 = { (obsRx s).2 with res := dst.result (obsRx s).1 s.res } := by
  have hres : (obsRx s).2 = { (obsRx s).2 with res := s.res } := by
    rcases obsRx_state s with h | h <;> rw [h]
  cases dst
  · rfl
  · exact hres
  · exact hres

@[simp] theorem finishRecovery_status (v : Bool) (s : State) :
    (finishRecovery v s).status = { s.status with stuck := !v, recovered := true } := by
  unfold finishRecovery; split <;> rfl
@[simp] theorem finishRecovery_diag (v : Bool) (s : State) :
    (finishRecovery v s).diag = { s.diag with recov := s.diag.recov + 1 } := by
  unfold finishRecovery; split <;> rfl
@[simp] theorem finishRecovery_fs (v : Bool) (s : State) : (finishRecovery v s).fs = .idle := rfl

/-- BR_HIGH goes to its target where the sample was high, else on (40_transport.md R119). -/
theorem brHigh_cases (target : Nat) (r : Run) (s : State) :
    (r.sda = true ∧ (MuOp.brHigh target).run r s = advanceTo target r (foundHigh s)) ∨
    (r.sda = false ∧ (MuOp.brHigh target).run r s = advance r s) := by
  cases h : r.sda <;> simp [MuOp.run, h]

/-- A bounded wait's micro-op (40_transport.md R104). -/
def MuOp.isWait (u : MuOp) : Prop := u = .waitIdle ∨ u = .waitCi

/-- Where a SEQ step of micro-op `u` of the run `r` leaves S.seq (10_state.md R50; 40_transport.md R104). -/
inductive SeqMoves (u : MuOp) (r : Run) (s' : State) : Prop where
  /-- The step goes past the program's end. -/
  | finish (n : Nat) (hn : n = r.step + 1 ∨ u = .brHigh n) (hend : r.prog.length ≤ n) (hseq : s'.seq = .idle)
  /-- A wait polls again. -/
  | poll (hu : u.isWait) (hiter : r.iter + 1 < Config.RETRY_MAX) (hseq : s'.seq = .run { r with iter := r.iter + 1 })
  /-- The step goes to another micro-op of the same program. -/
  | goto (r' : Run) (hop : r'.op = r.op) (hprog : r'.prog = r.prog) (hiter : r'.iter = 0)
      (hstep : r'.step = r.step + 1 ∨ u = .brHigh r'.step) (hlt : r'.step < r.prog.length) (hseq : s'.seq = .run r')

theorem seqMoves_advanceTo {u : MuOp} {r r1 : Run} {n : Nat} (s : State) (hop : r1.op = r.op) (hprog : r1.prog = r.prog)
    (hn : n = r.step + 1 ∨ u = .brHigh n) : SeqMoves u r (advanceTo n r1 s) := by
  rcases advanceTo_cases n r1 s with ⟨hlt, h⟩ | ⟨hge, h⟩
  · exact .goto { r1 with step := n, iter := 0 } hop hprog rfl hn (hprog ▸ hlt) (by rw [h])
  · exact .finish n hn (hprog ▸ Nat.not_lt.mp hge) (by rw [h])

theorem seqMoves_advance {u : MuOp} {r r1 : Run} (s : State) (hop : r1.op = r.op) (hprog : r1.prog = r.prog)
    (hstep : r1.step = r.step) : SeqMoves u r (advance r1 s) :=
  seqMoves_advanceTo s hop hprog (.inl (by rw [hstep]))

theorem seqMoves_waitPoll {u : MuOp} (hu : u.isWait) (ok : Bool) (r : Run) (s : State) :
    SeqMoves u r (waitPoll ok r s) := by
  rcases waitPoll_cases ok r s with ⟨-, h⟩ | ⟨-, hlt, h⟩ | ⟨-, -, h⟩
  · exact h ▸ seqMoves_advance s rfl rfl rfl
  · exact h ▸ .poll hu hlt rfl
  · exact h ▸ seqMoves_advance _ rfl rfl rfl

/-- What a SEQ step does to S.seq. -/
theorem muOp_seqMoves (u : MuOp) (r : Run) (s : State) : SeqMoves u r (u.run r s) := by
  cases u with
  | waitIdle => exact seqMoves_waitPoll (.inl rfl) _ _ _
  | waitCi => exact seqMoves_waitPoll (.inr rfl) _ _ _
  | brHigh target =>
    rcases brHigh_cases target r s with ⟨-, h⟩ | ⟨-, h⟩ <;> rw [h]
    · exact seqMoves_advanceTo _ rfl rfl (.inr rfl)
    · exact seqMoves_advance _ rfl rfl rfl
  | capRx dst => exact seqMoves_advance _ (by simp) (by simp) (by simp)
  | set e => exact seqMoves_advance _ (by simp) (by simp) (by simp)
  | _ => exact seqMoves_advance _ rfl rfl rfl

/-! ### STATUS and the diagnostic counters -/

/-- The micro-ops that collide with a transfer in flight (40_transport.md R108, R119). -/
def MuOp.mayCollide : MuOp → Bool
  | .cond _ => true
  | .txgo _ => true
  | .rxgo => true
  | .ackgo _ => true
  | .sclTake => true
  | _ => false

/-- What a SEQ step of micro-op `u` of the run `r` records in STATUS and counts (10_state.md R24, R38). -/
inductive Records (u : MuOp) (r : Run) (s s' : State) : Prop where
  | nothing (hst : s'.status = s.status) (hdiag : s'.diag = s.diag)
  | timeout (hu : u.isWait) (hiter : Config.RETRY_MAX ≤ r.iter + 1) (hst : s'.status = { s.status with tmo := true })
      (hdiag : s'.diag = { s.diag with tmo := s.diag.tmo + 1 })
  | ack (toRes a : Bool) (hu : u = .capAck toRes) (hst : s'.status = { s.status with ack := a })
      (hdiag : s'.diag = { s.diag with nack := if a then s.diag.nack + 1 else s.diag.nack })
  | collision (hu : u.mayCollide = true) (hclean : s.phy.poisoned = false) (hbusy : s.phy.pending ≠ none)
      (hphy : s'.phy = ⟨none, true⟩) (hst : s'.status = { s.status with coll := true })
      (hdiag : s'.diag = { s.diag with coll := s.diag.coll + 1 })
  | high (target : Nat) (hu : u = .brHigh target)
      (hst : s'.status = { s.status with recovered := false, stuck := false }) (hdiag : s'.diag = s.diag)
  | recovered (s1 : Bool) (hu : u = .recFinish) (hst : s'.status = { s.status with stuck := !s1, recovered := true })
      (hdiag : s'.diag = { s.diag with recov := s.diag.recov + 1 })
  | built (hu : u = .set .frame) (hst : s'.status = { s.status with frameValid := true }) (hdiag : s'.diag = s.diag)

theorem records_waitPoll {u : MuOp} (hu : u.isWait) (ok : Bool) (r : Run) {s s1 : State} (hst : s1.status = s.status)
    (hdiag : s1.diag = s.diag) : Records u r s (waitPoll ok r s1) := by
  rcases waitPoll_cases ok r s1 with ⟨-, h⟩ | ⟨-, -, h⟩ | ⟨-, hiter, h⟩ <;> rw [h]
  · exact .nothing (by simpa) (by simpa)
  · exact .nothing hst hdiag
  · exact .timeout hu (Nat.not_lt.mp hiter) (by simp [recordTimeout, hst]) (by simp [recordTimeout, hdiag])

theorem records_phyIssue {u : MuOp} (hu : u.mayCollide = true) (o : PhyOp) (r : Run) (s : State) :
    Records u r s (advance r (phyIssue o s)) := by
  rcases phyIssue_cases o s with ⟨-, h⟩ | ⟨hclean, hbusy, h⟩ | ⟨-, h⟩ <;> rw [h]
  · exact .nothing (by simp [advance]) (by simp [advance])
  · exact .collision hu hclean hbusy (by simp [advance]) (by simp [advance]) (by simp [advance])
  · exact .nothing (by simp [advance]) (by simp [advance])

theorem records_phyCond (c : Cond) (r : Run) (s : State) : Records (.cond c) r s (advance r (phyCond c s)) := by
  unfold phyCond
  rcases emitCond_cases c s with ⟨-, h⟩ | ⟨hclean, hbusy, h⟩ <;> rw [h]
  · exact .nothing (by simp [advance]) (by simp [advance])
  · exact .collision rfl hclean hbusy (by simp [advance]) (by simp [advance]) (by simp [advance])

theorem records_takeScl (r : Run) (s : State) : Records .sclTake r s (advance r (takeScl s)) := by
  rcases takeScl_cases s with ⟨-, h⟩ | ⟨hclean, hbusy, h⟩ <;> rw [h]
  · exact .nothing (by simp [advance]) (by simp [advance])
  · exact .collision rfl hclean hbusy (by simp [advance]) (by simp [advance]) (by simp [advance])

theorem records_set (e : SetOp) (r : Run) (s : State) : Records (.set e) r s (advance (e.temps r s) (e.apply r s)) := by
  cases e with
  | frame => exact .built rfl (by simp [advance, SetOp.apply]) (by simp [advance, SetOp.apply])
  | _ => exact .nothing (by simp [advance, SetOp.apply]) (by simp [advance, SetOp.apply])

/-- What a SEQ step does to STATUS and to the diagnostic counters. -/
theorem muOp_records (u : MuOp) (r : Run) (s : State) : Records u r s (u.run r s) := by
  cases u with
  | waitIdle => exact records_waitPoll (.inl rfl) _ _ (by simp) (by simp)
  | waitCi => exact records_waitPoll (.inr rfl) _ _ (by simp) (by simp)
  | cond c => exact records_phyCond c r s
  | txgo b => exact records_phyIssue rfl _ r s
  | rxgo => exact records_phyIssue rfl _ r s
  | ackgo a => exact records_phyIssue rfl _ r s
  | sclTake => exact records_takeScl r s
  | set e => exact records_set e r s
  | capAck toRes =>
    exact .ack toRes (obsAck s).1 rfl (by simp [MuOp.run, advance, captureAck]) (by simp [MuOp.run, advance, captureAck])
  | brHigh target =>
    rcases brHigh_cases target r s with ⟨-, h⟩ | ⟨-, h⟩ <;> rw [h]
    · exact .high target rfl (by simp) (by simp)
    · exact .nothing (by simp [advance]) (by simp [advance])
  | recFinish =>
    exact .recovered r.sda rfl (by simp [MuOp.run, advance]) (by simp [MuOp.run, advance])
  | _ => exact .nothing (by simp [MuOp.run, advance]) (by simp [MuOp.run, advance])

/-! ### The bus -/

/-- The micro-ops that issue on the bus (40_transport.md R107). -/
def MuOp.issues : MuOp → Bool
  | .cond _ => true
  | .txgo _ => true
  | .rxgo => true
  | .ackgo _ => true
  | _ => false

/-- What a SEQ step of micro-op `u` does to the PHY, to S.fs, to who drives the lines and to S.initd. -/
inductive BusMoves (u : MuOp) (s s' : State) : Prop where
  | still (hphy : s'.phy = s.phy) (hfs : s'.fs = s.fs) (hscl : s'.pins.sclOwner = s.pins.sclOwner)
      (hsda : s'.pins.sdaOwner = s.pins.sdaOwner) (hinit : s'.initd = s.initd)
  | issue (hu : u.issues = true)
      (hphy : s'.phy = s.phy ∨ (s.phy.pending ≠ none ∧ s'.phy = ⟨none, true⟩) ∨
        (s.phy = ⟨none, false⟩ ∧ ∃ o, s'.phy = ⟨some o, false⟩))
      (hfs : (∃ c, u = .cond c) ∨ s'.fs = s.fs) (hpins : s'.pins = s.pins) (hinit : s'.initd = s.initd)
  | take (hu : u = .sclTake) (hphy : s'.phy = s.phy ∨ (s.phy.pending ≠ none ∧ s'.phy = ⟨none, true⟩)) (hfs : s'.fs = s.fs)
      (hscl : s'.pins.sclOwner = .gpio) (hsda : s'.pins.sdaOwner = s.pins.sdaOwner) (hinit : s'.initd = s.initd)
  | restore (hu : u = .sclRestore) (hphy : s'.phy = s.phy) (hfs : s'.fs = s.fs)
      (hscl : s'.pins.sclOwner = restoredOwner s) (hsda : s'.pins.sdaOwner = s.pins.sdaOwner) (hinit : s'.initd = s.initd)
  | finish (hu : u = .recFinish) (hphy : s'.phy = s.phy) (hfs : s'.fs = .idle) (hpins : s'.pins = s.pins)
      (hinit : s'.initd = s.initd)
  | init (hu : u = .set .init) (hphy : s'.phy = ⟨none, false⟩) (hscl : s'.pins.sclOwner = .phy)
      (hsda : s'.pins.sdaOwner = .phy) (hinit : s'.initd = true)
  | deinit (hu : u = .set .deinit) (hphy : s'.phy = ⟨none, false⟩) (hfs : s'.fs = .idle)
      (hscl : s'.pins.sclOwner = .released) (hsda : s'.pins.sdaOwner = .released) (hinit : s'.initd = false)

theorem busMoves_phyIssue {u : MuOp} (hu : u.issues = true) (o : PhyOp) (r : Run) (s : State) :
    BusMoves u s (advance r (phyIssue o s)) := by
  refine .issue hu ?_ (.inr (by simp [advance])) (by simp [advance]) (by simp [advance])
  rcases phyIssue_cases o s with ⟨-, h⟩ | ⟨-, hbusy, h⟩ | ⟨hphy, h⟩ <;> rw [h]
  · exact .inl (by simp [advance])
  · exact .inr (.inl ⟨hbusy, by simp [advance]⟩)
  · exact .inr (.inr ⟨hphy, o, by simp [advance]⟩)

theorem busMoves_phyCond (c : Cond) (r : Run) (s : State) : BusMoves (.cond c) s (advance r (phyCond c s)) := by
  refine .issue rfl ?_ (.inl ⟨c, rfl⟩) (by simp [advance]) (by simp [advance])
  unfold phyCond
  rcases emitCond_cases c s with ⟨-, h⟩ | ⟨-, hbusy, h⟩ <;> rw [h]
  · exact .inl (by simp [advance])
  · exact .inr (.inl ⟨hbusy, by simp [advance]⟩)

theorem busMoves_takeScl (r : Run) (s : State) : BusMoves .sclTake s (advance r (takeScl s)) := by
  rcases takeScl_cases s with ⟨-, h⟩ | ⟨-, hbusy, h⟩ <;> rw [h]
  · exact .take rfl (.inl (by simp [advance])) (by simp [advance]) (by simp [advance]) (by simp [advance]) (by simp [advance])
  · exact .take rfl (.inr ⟨hbusy, by simp [advance]⟩) (by simp [advance]) (by simp [advance]) (by simp [advance])
      (by simp [advance])

theorem busMoves_set (e : SetOp) (r : Run) (s : State) : BusMoves (.set e) s (advance (e.temps r s) (e.apply r s)) := by
  cases e with
  | init =>
    refine .init rfl ?_ ?_ ?_ ?_ <;> simp [advance, SetOp.apply, initEffect]
  | deinit =>
    refine .deinit rfl ?_ ?_ ?_ ?_ ?_ <;> simp [advance, SetOp.apply, deinitEffect]
  | _ => refine .still ?_ ?_ ?_ ?_ ?_ <;> simp [advance, SetOp.apply]

/-- What a SEQ step does to the bus. -/
theorem muOp_busMoves (u : MuOp) (r : Run) (s : State) : BusMoves u s (u.run r s) := by
  cases u with
  | cond c => exact busMoves_phyCond c r s
  | txgo b => exact busMoves_phyIssue rfl _ r s
  | rxgo => exact busMoves_phyIssue rfl _ r s
  | ackgo a => exact busMoves_phyIssue rfl _ r s
  | sclTake => exact busMoves_takeScl r s
  | set e => exact busMoves_set e r s
  | sclRestore => refine .restore rfl ?_ ?_ ?_ ?_ ?_ <;> simp [MuOp.run, advance]
  | recFinish => refine .finish rfl ?_ ?_ ?_ ?_ <;> simp [MuOp.run, advance]
  | brHigh target =>
    rcases brHigh_cases target r s with ⟨-, h⟩ | ⟨-, h⟩ <;> refine .still ?_ ?_ ?_ ?_ ?_ <;> simp [h, advance]
  | _ => refine .still ?_ ?_ ?_ ?_ ?_ <;> simp [MuOp.run, advance]

/-! ### The trace -/

/-- `s'` holds the trace of `s` and more records after it; all of these carry `unrel` where the PHY was poisoned
(10_state.md R52; log 7). -/
def Logs (s s' : State) : Prop :=
  ∃ l, s'.trace = s.trace ++ l ∧ (s.phy.poisoned = true → ∀ x ∈ l, x.flags.unrel = true)

theorem logs_of_trace_eq {s s' : State} (h : s'.trace = s.trace) : Logs s s' := ⟨[], by simp [h], by simp⟩

theorem logs_logFlagged (e : Event) (uf ro : Bool) (s : State) : Logs s (logFlagged e uf ro s) :=
  ⟨[⟨e, ⟨uf, ro, s.phy.poisoned⟩⟩], rfl, by simp⟩

/-- A record logged at a state with the same trace and a PHY poisoned where `s`'s is. -/
theorem logs_log {s s1 s' : State} (e : Event) (ht : s1.trace = s.trace)
    (hp : s.phy.poisoned = true → s1.phy.poisoned = true) (h : s'.trace = (log e s1).trace) : Logs s s' :=
  ⟨[⟨e, ⟨false, false, s1.phy.poisoned⟩⟩], by simp [h, ht], by simpa using hp⟩

theorem logs_congr {s s1 s' : State} (h : Logs s s1) (ht : s'.trace = s1.trace) : Logs s s' := by
  obtain ⟨l, hl, hu⟩ := h
  exact ⟨l, ht.trans hl, hu⟩

/-- A collision happens on a PHY that is not poisoned, so no record of it has to carry `unrel`. -/
theorem logs_of_clean {s s' : State} (l : List Record) (hp : s.phy.poisoned = false) (h : s'.trace = s.trace ++ l) :
    Logs s s' := ⟨l, h, by simp [hp]⟩

theorem logs_phyIssue (o : PhyOp) (s : State) : Logs s (phyIssue o s) := by
  rcases phyIssue_cases o s with ⟨-, h⟩ | ⟨hp, -, h⟩ | ⟨-, h⟩ <;> rw [h]
  · exact logs_logFlagged _ _ _ _
  · exact logs_of_clean _ hp rfl
  · exact logs_congr (logs_logFlagged _ _ _ _) rfl

theorem logs_phyCond (c : Cond) (s : State) : Logs s (phyCond c s) := by
  unfold phyCond
  rcases emitCond_cases c s with ⟨-, h⟩ | ⟨hp, -, h⟩ <;> rw [h]
  · exact logs_congr (logs_logFlagged _ _ _ _) rfl
  · exact logs_of_clean _ hp rfl

theorem logs_takeScl (s : State) : Logs s (takeScl s) := by
  rcases takeScl_cases s with ⟨-, h⟩ | ⟨hp, -, h⟩ <;> rw [h]
  · exact logs_log (s1 := { s with pins.sclOwner := .gpio }) _ rfl id rfl
  · exact logs_of_clean _ hp (by simp; rfl)

theorem logs_abandonOpen (s : State) : Logs s (abandonOpen s) := by
  unfold abandonOpen
  split
  · exact logs_logFlagged _ _ _ _
  · exact logs_of_trace_eq rfl

theorem logs_finishRecovery (v : Bool) (s : State) : Logs s (finishRecovery v s) := by
  unfold finishRecovery
  split
  · exact logs_congr (logs_logFlagged _ _ _ _) rfl
  · exact logs_of_trace_eq rfl

theorem logs_set (e : SetOp) (r : Run) (s : State) : Logs s (e.apply r s) := by
  cases e with
  | init => exact logs_congr (logs_abandonOpen s) rfl
  | deinit => exact logs_congr (logs_abandonOpen s) rfl
  | _ => exact logs_of_trace_eq (by simp [SetOp.apply])

/-- What a SEQ step does to the trace. -/
theorem muOp_logs (u : MuOp) (r : Run) (s : State) : Logs s (u.run r s) := by
  have hadv : ∀ {s1 : State} (r1 : Run), Logs s s1 → Logs s (advance r1 s1) := fun _ h => logs_congr h (by simp [advance])
  cases u with
  | cond c => exact hadv r (logs_phyCond c s)
  | txgo b => exact hadv r (logs_phyIssue _ s)
  | rxgo => exact hadv r (logs_phyIssue _ s)
  | ackgo a => exact hadv r (logs_phyIssue _ s)
  | set e => exact hadv _ (logs_set e r s)
  | sdaSample => exact hadv _ (logs_log (s1 := { s with env := s.env.takeSda.2 }) _ rfl id rfl)
  | sclTake => exact hadv r (logs_takeScl s)
  | sclDrive level => exact hadv r (logs_log (s1 := { s with pins.sclLevel := level }) _ rfl id rfl)
  | sclRestore => exact hadv r (logs_log (s1 := { s with pins.sclOwner := restoredOwner s }) _ rfl id rfl)
  | recFinish => exact hadv r (logs_finishRecovery _ s)
  | brHigh target =>
    rcases brHigh_cases target r s with ⟨-, h⟩ | ⟨-, h⟩ <;> exact logs_of_trace_eq (by simp [h, advance])
  | _ => exact logs_of_trace_eq (by simp [MuOp.run, advance])

/-! ### The results -/

/-- The registers a command's micro-ops write as results or settings, without STATUS and the counters. -/
structure Results where
  res : Word
  clkHz : Word
  laddr : Byte
  cnt : Word
  light : Half
  uva : Half
  uvb : Half
  comp1 : Half
  comp2 : Half
  frame : Memory

/-- The results as the state holds them. -/
def State.results (s : State) : Results where
  res := s.res
  clkHz := s.clkHz
  laddr := s.laddr
  cnt := s.cnt
  light := s.light
  uva := s.uva
  uvb := s.uvb
  comp1 := s.comp1
  comp2 := s.comp2
  frame := s.frame

/-- The results after a SEQ step: four kinds of micro-op write RES, and a SET writes what its command's rule names. -/
def MuOp.results : MuOp → Run → State → Results
  | .capAck true, _, s => { s.results with res := bitWord (obsAck s).1 }
  | .capRx .res, _, s => { s.results with res := (obsRx s).1.setWidth 32 }
  | .set e, r, s => (e.apply r s).results
  | _, _, s => s.results

/-- What a SEQ step does to the results. -/
theorem muOp_results (u : MuOp) (r : Run) (s : State) : (u.run r s).results = u.results r s := by
  cases u with
  | capAck toRes => cases toRes <;> simp [MuOp.run, MuOp.results, State.results, advance, captureAck]
  | capRx dst => cases dst <;> simp [MuOp.run, MuOp.results, State.results, advance, RxDst.result]
  | brHigh target =>
    rcases brHigh_cases target r s with ⟨-, h⟩ | ⟨-, h⟩ <;> simp [h, MuOp.results, State.results, advance]
  | _ => simp [MuOp.run, MuOp.results, State.results, advance]

/-! ### The latches -/

/-- No SEQ step sets S.ci (10_state.md R45). -/
theorem muOp_ci (u : MuOp) (r : Run) (s : State) : (u.run r s).ci = s.ci ∨ (u.run r s).ci = false := by
  cases u with
  | clrCi => exact .inr (by simp [MuOp.run, advance])
  | set e =>
    cases e with
    | init => exact .inr (by simp [MuOp.run, advance, SetOp.apply, initEffect])
    | deinit => exact .inr (by simp [MuOp.run, advance, SetOp.apply, deinitEffect])
    | _ => exact .inl (by simp [MuOp.run, advance, SetOp.apply])
  | brHigh target => rcases brHigh_cases target r s with ⟨-, h⟩ | ⟨-, h⟩ <;> exact .inl (by simp [h, advance])
  | _ => exact .inl (by simp [MuOp.run, advance])

/-- S.ackstat and S.rxbuf are cleared by INIT; no other SEQ step writes them (R46, R47). -/
theorem muOp_buffers (u : MuOp) (r : Run) (s : State) :
    u = .set .init ∨ (u.run r s).ackstat = s.ackstat ∧ (u.run r s).rxbuf = s.rxbuf := by
  cases u with
  | set e =>
    cases e with
    | init => exact .inl rfl
    | _ => exact .inr (by simp [MuOp.run, advance, SetOp.apply])
  | brHigh target => rcases brHigh_cases target r s with ⟨-, h⟩ | ⟨-, h⟩ <;> exact .inr (by simp [h, advance])
  | _ => exact .inr (by simp [MuOp.run, advance])

/-! ### What the host alone writes -/

/-- The registers only a HOST access writes, with CMD and the operand latch (10_state.md R22, R26, R27, R32 to R35, R54). -/
structure Inputs where
  ctrl : Ctrl
  arg : Word
  cmd : Word
  argLatch : Word
  nodeType : Half
  uid0 : Word
  uid1 : Word
  swver : Byte
  batt : Half
  temp : Half

/-- The host's registers as the state holds them. -/
def State.inputs (s : State) : Inputs where
  ctrl := s.ctrl
  arg := s.arg
  cmd := s.cmd
  argLatch := s.argLatch
  nodeType := s.nodeType
  uid0 := s.uid0
  uid1 := s.uid1
  swver := s.swver
  batt := s.batt
  temp := s.temp

/-- No SEQ step writes them. -/
theorem muOp_inputs (u : MuOp) (r : Run) (s : State) : (u.run r s).inputs = s.inputs := by
  cases u with
  | set e => cases e <;> simp [MuOp.run, State.inputs, advance, SetOp.apply]
  | brHigh target => rcases brHigh_cases target r s with ⟨-, h⟩ | ⟨-, h⟩ <;> simp [h, State.inputs, advance]
  | _ => simp [MuOp.run, State.inputs, advance]

end Sys2Proof.Machine
end

section
/-! SUPPORT. What one HOST turn can do, said once per part of the state: the inside of the block (`State.inner`), STATUS
(`HostRecords`), and S.seq. And the step as a whole: what every agent keeps, every step keeps. -/

namespace Sys2Proof.Machine

/-! ### Launch and rejection -/

/-- What a launched command does (30_encoding.md R81; 40_transport.md R101): an error is recorded, or the command is
accepted with S.initd = 1 where it needs it. -/
theorem exec_cases {i : Instr} {s s' : State} (h : exec i s = .next s') :
    (∃ c, c ≠ .none ∧ s' = raiseCmdError c s) ∨
    ((needsInit i = true → s.initd = true) ∧ s' = launch i (program i) s) := by
  rw [exec_eq] at h
  obtain rfl := Host.Outcome.next.inj h
  split
  · exact .inl ⟨.badArg, by decide, rfl⟩
  · split
    · exact .inl ⟨.notInit, by decide, rfl⟩
    · rename_i hinit
      exact .inr ⟨fun hn => by simpa [hn] using hinit, rfl⟩

/-- The decoder's rejections all name an error. -/
theorem decodeWord_error_ne_none {w : Word} {c : ErrCode} (h : decodeWord w = .error c) : c ≠ .none := by
  unfold decodeWord at h
  split at h
  · obtain rfl := Except.error.inj h
    decide
  · split at h
    · obtain rfl := Except.error.inj h
      decide
    · cases h

/-! ### The inside of the block -/

/-- The part of the state that no host access reaches (10_state.md R41; 20_memory.md R66; 60_exceptions.md R186). -/
structure Inner where
  phy : Phy
  ci : Bool
  ackstat : Bool
  rxbuf : Byte
  fs : Framing
  pins : Pins
  trace : List Record
  initd : Bool
  frame : Memory
  res : Word
  clkHz : Word
  laddr : Byte
  diag : Diag
  env : Env

/-- The inside of the block as the state holds it. -/
def State.inner (s : State) : Inner where
  phy := s.phy
  ci := s.ci
  ackstat := s.ackstat
  rxbuf := s.rxbuf
  fs := s.fs
  pins := s.pins
  trace := s.trace
  initd := s.initd
  frame := s.frame
  res := s.res
  clkHz := s.clkHz
  laddr := s.laddr
  diag := s.diag
  env := s.env

theorem writeReg_inner (r : RegName) (v : Word) (s : State) : (writeReg r v s).inner = s.inner := by cases r <;> rfl

theorem writeReg_seq (r : RegName) (v : Word) (s : State) : (writeReg r v s).seq = s.seq := by cases r <;> rfl

/-- A register write moves STATUS only where the register is STATUS. -/
theorem writeReg_status (r : RegName) (v : Word) (s : State) :
    (writeReg r v s).status = s.status ∨ (writeReg r v s).status = (clearStatus v s).status := by
  cases r with
  | status => exact .inr rfl
  | _ => exact .inl rfl

theorem raiseCmdError_inner (c : ErrCode) (s : State) : (raiseCmdError c s).inner = s.inner := by
  rw [raiseCmdError_eq]; rfl

theorem launch_inner (i : Instr) (p : List MuOp) (s : State) : (launch i p s).inner = s.inner := by
  cases p <;> rfl

/-- A HOST turn leaves the inside of the block as it was. -/
theorem hostStep_inner {s s' : State} (h : hostStep s = .next s') : s'.inner = s.inner := by
  rcases hostStep_cases h with ⟨l, d, rfl⟩ | ⟨l, -, rfl⟩ | ⟨l, -, rfl⟩ | ⟨l, r, v, -, -, rfl⟩ | ⟨l, w, c, -, -, rfl⟩ |
    ⟨l, w, i, -, -, hexec⟩
  · rfl
  · rfl
  · exact raiseCmdError_inner _ _
  · exact writeReg_inner _ _ _
  · exact raiseCmdError_inner _ _
  · rcases exec_cases hexec with ⟨c, -, rfl⟩ | ⟨-, rfl⟩
    · exact raiseCmdError_inner _ _
    · exact launch_inner _ _ _

/-! ### STATUS -/

/-- The error record depends on STATUS alone. -/
theorem raiseCmdError_status_congr (c : ErrCode) {s s1 : State} (h : s1.status = s.status) :
    (raiseCmdError c s1).status = (raiseCmdError c s).status := by
  simp only [raiseCmdError, h]
  split <;> simp

/-- What a HOST turn records in STATUS (10_state.md R24, R25; 60_exceptions.md R186, R189). -/
inductive HostRecords (s s' : State) : Prop where
  | nothing (hst : s'.status = s.status)
  | dropped (hbusy : s.busy = true) (hst : s'.status = { s.status with wwb := true })
  | raised (c : ErrCode) (hc : c ≠ .none) (hidle : s.seq = .idle) (hst : s'.status = (raiseCmdError c s).status)
  | cleared (v : Word) (hst : s'.status = (clearStatus v s).status)

/-- What a HOST turn does to STATUS. -/
theorem hostStep_records {s s' : State} (h : hostStep s = .next s') : HostRecords s s' := by
  rcases hostStep_cases h with ⟨l, d, rfl⟩ | ⟨l, hb, rfl⟩ | ⟨l, hi, rfl⟩ | ⟨l, r, v, -, -, rfl⟩ | ⟨l, w, c, hi, hc, rfl⟩ |
    ⟨l, w, i, hi, -, hexec⟩
  · exact .nothing rfl
  · exact .dropped hb rfl
  · exact .raised .badAccess (by decide) hi (raiseCmdError_status_congr _ rfl)
  · rcases writeReg_status r v { s with host := l } with hst | hst
    · exact .nothing hst
    · exact .cleared v hst
  · exact .raised c (decodeWord_error_ne_none hc) hi (raiseCmdError_status_congr _ rfl)
  · rcases exec_cases hexec with ⟨c, hc, rfl⟩ | ⟨-, rfl⟩
    · exact .raised c hc hi (raiseCmdError_status_congr _ rfl)
    · exact .nothing (by simp)

/-- The fields a HOST turn leaves, and the two it can only clear. -/
theorem hostRecords_keeps {s s' : State} (h : HostRecords s s') :
    s'.status.frameValid = s.status.frameValid ∧ s'.status.ack = s.status.ack ∧ s'.status.stuck = s.status.stuck ∧
    s'.status.recovered = s.status.recovered ∧ (s.status.tmo = false → s'.status.tmo = false) ∧
    (s.status.coll = false → s'.status.coll = false) := by
  cases h with
  | nothing hst => simp [hst]
  | dropped hb hst => simp [hst]
  | raised c hc hi hst => rcases raiseCmdError_cases c s with ⟨-, h⟩ | ⟨-, h⟩ <;> simp [hst, h]
  | cleared v hst => simp +contextual [hst, clearStatus]

/-- ERR_OVF is set by an error over an error, WWB by a write while busy (60_exceptions.md R189, R191). -/
theorem hostRecords_sets {s s' : State} (h : HostRecords s s') :
    (s.status.errOvf = false → s'.status.errOvf = true → s.status.err = true ∧ s.busy = false) ∧
    (s.status.wwb = false → s'.status.wwb = true → s.busy = true) := by
  cases h with
  | nothing hst => simp +contextual [hst]
  | dropped hb hst => simp +contextual [hst, hb]
  | raised c hc hi hst =>
    rcases raiseCmdError_cases c s with ⟨-, h⟩ | ⟨herr, h⟩
    · simp +contextual [hst, h]
    · simp +contextual [hst, h, herr, busy_of_idle hi]
  | cleared v hst => simp +contextual [hst, clearStatus]

/-! ### S.seq -/

/-- A HOST turn leaves S.seq alone, or launches a command on an idle sequencer, with S.initd = 1 where the command needs
it. -/
theorem hostStep_seq {s s' : State} (h : hostStep s = .next s') :
    s'.seq = s.seq ∨
    (s.seq = .idle ∧ ∃ i, (needsInit i = true → s.initd = true) ∧ program i ≠ [] ∧
      s'.seq = .run (Run.fresh i (program i))) := by
  rcases hostStep_cases h with ⟨l, d, rfl⟩ | ⟨l, -, rfl⟩ | ⟨l, -, rfl⟩ | ⟨l, r, v, -, -, rfl⟩ | ⟨l, w, c, -, -, rfl⟩ |
    ⟨l, w, i, hi, -, hexec⟩
  · exact .inl rfl
  · exact .inl rfl
  · exact .inl (by simp)
  · exact .inl (writeReg_seq _ _ _)
  · exact .inl (by simp)
  · rcases exec_cases hexec with ⟨c, -, rfl⟩ | ⟨hinit, rfl⟩
    · exact .inl (by simp)
    · rcases launch_cases i (program i) (latchCommand w { s with host := l }) with ⟨-, e⟩ | ⟨hne, e⟩ <;> rw [e]
      · exact .inl rfl
      · exact .inr ⟨hi, i, hinit, hne, rfl⟩

/-- A HOST turn leaves a running command where it is. -/
theorem hostStep_seq_busy {s s' : State} (h : hostStep s = .next s') (hb : s.busy = true) : s'.seq = s.seq := by
  rcases hostStep_seq h with hseq | ⟨hidle, -⟩
  · exact hseq
  · exact absurd hb (by simp [busy_of_idle hidle])

/-! ### The PHY turn and the reset turn -/

/-- A PHY turn moves the PHY, the latches, ENV's answers and the trace, and nothing else. -/
theorem phyStep_eq (s : State) :
    phyStep s = { s with
      phy := (phyStep s).phy, ackstat := (phyStep s).ackstat, ci := (phyStep s).ci, rxbuf := (phyStep s).rxbuf,
      env := (phyStep s).env, trace := (phyStep s).trace } := by
  rcases phyStep_cases s with ⟨-, h⟩ | ⟨b, -, h⟩ | ⟨-, h⟩ | ⟨a, -, h⟩ <;> rw [h]

/-- A PHY turn leaves the PHY as it was, or ends a transfer of a PHY that is not poisoned. -/
theorem phyStep_phy (s : State) :
    (phyStep s).phy = s.phy ∨ (s.phy.poisoned = false ∧ s.phy.pending ≠ none ∧ (phyStep s).phy = ⟨none, false⟩) := by
  rcases phyStep_cases s with ⟨-, h⟩ | ⟨b, hphy, h⟩ | ⟨hphy, h⟩ | ⟨a, hphy, h⟩ <;> rw [h]
  · exact .inl rfl
  all_goals exact .inr (by simp [hphy])

/-! ### The step as a whole -/

/-- What the schedule does not move and every agent keeps, every step keeps. -/
theorem step_keeps {P : State → Prop} (hsched : ∀ s l n, P s → P { s with sched := l, turns := n })
    (hhost : ∀ s s', P s → hostStep s = .next s' → P s') (hseq : ∀ s, P s → P (seqStep s))
    (hphy : ∀ s, P s → P (phyStep s)) (hreset : ∀ s, P (powerOn s)) {s s' : State} (h : P s)
    (hstep : step s = .next s') : P s' := by
  rw [step_eq] at hstep
  have h0 := hsched s (turnTaken s).sched (turnTaken s).turns h
  cases ht : whoseTurn s with
  | host => exact hhost _ _ h0 (by rwa [ht] at hstep)
  | seq => rw [ht] at hstep; exact Host.Outcome.next.inj hstep ▸ hseq _ h0
  | phy => rw [ht] at hstep; exact Host.Outcome.next.inj hstep ▸ hphy _ h0
  | reset => rw [ht] at hstep; exact Host.Outcome.next.inj hstep ▸ hreset _

/-- What every micro-op keeps, and the end of a command at a step past its program, every SEQ step keeps. -/
theorem seqStep_keeps {P : State → Prop} {s : State} (h : P s) (hend : P { s with seq := .idle })
    (hrun : ∀ u r, s.seq = .run r → r.prog[r.step]? = some u → P (u.run r s)) : P (seqStep s) := by
  cases hs : s.seq with
  | idle => rwa [seqStep_idle hs]
  | run r =>
    cases hu : r.prog[r.step]? with
    | none => rwa [show seqStep s = { s with seq := .idle } by simp [seqStep, hs, hu]]
    | some u => rw [seqStep_run hs hu]; exact hrun u r hs hu

end Sys2Proof.Machine
end

section
/-! PROOFS. The invariants every step keeps, and that the reset state meets them. -/

namespace Sys2Proof.Machine

/-! ### S.seq inside its command's program -/

theorem retryMax_pos : 0 < Config.RETRY_MAX := by decide

/-- `SequencerOk` speaks of S.seq alone. -/
theorem sequencerOk_congr {s s' : State} (h : SequencerOk s) (hseq : s'.seq = s.seq) : SequencerOk s' :=
  fun r hr => h r (hseq ▸ hr)

theorem sequencerOk_of_idle {s : State} (h : s.seq = .idle) : SequencerOk s := by
  intro r hr
  rw [h] at hr
  cases hr

/-- The run a state is in, if it is known, is the one to check. -/
theorem sequencerOk_of_run {s : State} {r : Run} (h : s.seq = .run r) (hprog : r.prog = program r.op)
    (hstep : r.step < r.prog.length) (hiter : r.iter < Config.RETRY_MAX) : SequencerOk s := by
  intro r' hr'
  rw [h] at hr'
  obtain rfl := Sequencer.run.inj hr'
  exact ⟨hprog, hstep, hiter⟩

theorem hostStep_sequencerOk {s s' : State} (hs : SequencerOk s) (h : hostStep s = .next s') : SequencerOk s' := by
  rcases hostStep_seq h with hseq | ⟨-, i, -, hne, hseq⟩
  · exact sequencerOk_congr hs hseq
  · exact sequencerOk_of_run hseq rfl (List.length_pos_iff.mpr hne) retryMax_pos

/-- A micro-op keeps S.seq inside the program. -/
theorem muOp_sequencerOk (u : MuOp) {r : Run} {s : State} (hs : SequencerOk s) (hr : s.seq = .run r) :
    SequencerOk (u.run r s) := by
  obtain ⟨hprog, hstep, -⟩ := hs r hr
  cases muOp_seqMoves u r s with
  | finish n hn hend hseq => exact sequencerOk_of_idle hseq
  | poll hu hiter hseq => exact sequencerOk_of_run hseq hprog hstep hiter
  | goto r' hop hp hiter hn hlt hseq =>
    exact sequencerOk_of_run hseq (by rw [hp, hop, hprog]) (hp ▸ hlt) (hiter ▸ retryMax_pos)

theorem seqStep_sequencerOk {s : State} (hs : SequencerOk s) : SequencerOk (seqStep s) :=
  seqStep_keeps hs (sequencerOk_of_idle rfl) fun u _ hr _ => muOp_sequencerOk u hs hr

theorem phyStep_sequencerOk {s : State} (hs : SequencerOk s) : SequencerOk (phyStep s) :=
  sequencerOk_congr hs (by rw [phyStep_eq])

theorem powerOn_sequencerOk (s : State) : SequencerOk (powerOn s) := sequencerOk_of_idle rfl

/-- Settles O43: a launch starts its command's own program, a SEQ step moves inside it, and no other turn moves S.seq. -/
theorem stepKeepsSequencerOk : Obligations.StepKeepsSequencerOk := fun _ _ =>
  step_keeps (fun _ _ _ h => h) (fun _ _ => hostStep_sequencerOk) (fun _ => seqStep_sequencerOk)
    (fun _ => phyStep_sequencerOk) powerOn_sequencerOk

/-! ### The PHY, INIT and the lines -/

@[simp] theorem running_eq_some {s : State} {i : Instr} : s.running = some i ↔ ∃ r, s.seq = .run r ∧ r.op = i := by
  cases h : s.seq <;> simp [State.running, h]

/-- A SEQ step runs the same command on, or ends it. -/
theorem muOp_running {u : MuOp} {r : Run} {s : State} {i : Instr} (h : (u.run r s).running = some i) : r.op = i := by
  obtain ⟨r1, hr1, rfl⟩ := running_eq_some.mp h
  cases muOp_seqMoves u r s with
  | finish n hn hend hseq => rw [hseq] at hr1; cases hr1
  | poll hu hiter hseq => rw [hseq] at hr1; exact Sequencer.run.inj hr1 ▸ rfl
  | goto r' hop hp hiter hn hlt hseq => rw [hseq] at hr1; exact Sequencer.run.inj hr1 ▸ hop.symm

/-- What `BusOk` asks without INIT, but for the running command. -/
def Detached (s : State) : Prop :=
  s.phy = ⟨none, false⟩ ∧ s.fs = .idle ∧ s.pins.sdaOwner = .released ∧ s.pins.sclOwner ≠ .phy

/-- What `BusOk` asks after INIT. -/
def Attached (s : State) : Prop := s.pins.sdaOwner = .phy ∧ s.pins.sclOwner ≠ .released

/-- `BusOk` in its three parts: the poisoned PHY, the lines and the PHY without INIT or after it, and the running command
without INIT. -/
theorem busOk_iff {s : State} :
    BusOk s ↔ (s.phy.poisoned = true → s.phy.pending = none) ∧ (s.initd = false → Detached s) ∧
      (s.initd = true → Attached s) ∧ (s.initd = false → ∀ i, s.running = some i → needsInit i = false) := by
  constructor
  · rintro ⟨hp, hoff, hon⟩
    refine ⟨hp, fun h => ?_, hon, fun h => ?_⟩
    · obtain ⟨hphy, hfs, hsda, hscl, -⟩ := hoff h
      exact ⟨hphy, hfs, hsda, hscl⟩
    · obtain ⟨-, -, -, -, hrun⟩ := hoff h
      exact hrun
  · rintro ⟨hp, hoff, hon, hrun⟩
    refine ⟨hp, fun h => ?_, hon⟩
    obtain ⟨hphy, hfs, hsda, hscl⟩ := hoff h
    exact ⟨hphy, hfs, hsda, hscl, hrun h⟩

theorem hostStep_busOk {s s' : State} (hs : BusOk s) (h : hostStep s = .next s') : BusOk s' := by
  have hin := hostStep_inner h
  simp only [State.inner, Inner.mk.injEq] at hin
  obtain ⟨hphy, -, -, -, hfs, hpins, -, hinit, -⟩ := hin
  obtain ⟨hp, hoff, hon, hrun⟩ := busOk_iff.mp hs
  refine busOk_iff.mpr ⟨by rwa [hphy], ?_, ?_, fun hi i hrun' => ?_⟩
  · rwa [Detached, hphy, hfs, hpins, hinit]
  · rwa [Attached, hpins, hinit]
  · rw [hinit] at hi
    rcases hostStep_seq h with hseq | ⟨-, j, hneed, -, hseq⟩
    · exact hrun hi i (by simpa [hseq] using hrun')
    · obtain ⟨r, hr, rfl⟩ := running_eq_some.mp hrun'
      obtain rfl := Sequencer.run.inj (hseq.symm.trans hr)
      exact Bool.eq_false_iff.mpr fun hn => by simp [hneed hn] at hi

/-- A bus operation runs only in a command that needs INIT. -/
theorem needsInit_of_issues {u : MuOp} {i : Instr} {k : Nat} (hu : u.issues = true) (h : standsAt i k u = true) :
    needsInit i = true := by
  cases u <;> simp_all [MuOp.issues, standsAt]

/-- A micro-op of a command that stands where the programs put it keeps `BusOk`. -/
theorem muOp_busOk {u : MuOp} {r : Run} {s : State} (hs : BusOk s) (hr : s.seq = .run r)
    (hu : standsAt r.op r.step u = true) : BusOk (u.run r s) := by
  obtain ⟨hp, hoff, hon, hrun⟩ := busOk_iff.mp hs
  have hrun' : s.initd = false → ∀ i, (u.run r s).running = some i → needsInit i = false :=
    fun hi i h => hrun hi i (running_eq_some.mpr ⟨r, hr, muOp_running h⟩)
  cases muOp_busMoves u r s with
  | still hphy hfs hscl hsda hinit =>
    exact busOk_iff.mpr ⟨by rwa [hphy], by rwa [Detached, hphy, hfs, hscl, hsda, hinit],
      by rwa [Attached, hscl, hsda, hinit], by rwa [hinit]⟩
  | issue hiss hphy hfs hpins hinit =>
    have hi : s.initd = true := by
      by_contra hi
      have := hrun (by simpa using hi) r.op (running_eq_some.mpr ⟨r, hr, rfl⟩)
      simp [needsInit_of_issues hiss hu] at this
    refine busOk_iff.mpr ⟨?_, by simp [hinit, hi], by rwa [Attached, hpins, hinit], by rwa [hinit]⟩
    rcases hphy with hphy | ⟨-, hphy⟩ | ⟨-, o, hphy⟩ <;> rw [hphy]
    · exact hp
    · simp
    · simp
  | take hu hphy hfs hscl hsda hinit =>
    refine busOk_iff.mpr ⟨?_, fun hi => ?_, fun hi => ?_, by rwa [hinit]⟩
    · rcases hphy with hphy | ⟨-, hphy⟩ <;> rw [hphy]
      · exact hp
      · simp
    · obtain ⟨hq, hf, hd, -⟩ := hoff (hinit ▸ hi)
      refine ⟨?_, hfs.trans hf, hsda.trans hd, by simp [hscl]⟩
      rcases hphy with hphy | ⟨hbusy, -⟩
      · exact hphy.trans hq
      · exact absurd (by rw [hq]) hbusy
    · obtain ⟨hd, -⟩ := hon (hinit ▸ hi)
      exact ⟨hsda.trans hd, by simp [hscl]⟩
  | restore hu hphy hfs hscl hsda hinit =>
    refine busOk_iff.mpr ⟨by rwa [hphy], fun hi => ?_, fun hi => ?_, by rwa [hinit]⟩
    · rw [hinit] at hi
      obtain ⟨hq, hf, hd, -⟩ := hoff hi
      exact ⟨hphy.trans hq, hfs.trans hf, hsda.trans hd, by simp [hscl, restoredOwner, hi]⟩
    · rw [hinit] at hi
      obtain ⟨hd, -⟩ := hon hi
      exact ⟨hsda.trans hd, by simp [hscl, restoredOwner, hi]⟩
  | finish hu hphy hfs hpins hinit =>
    refine busOk_iff.mpr ⟨by rwa [hphy], fun hi => ?_, by rwa [Attached, hpins, hinit], by rwa [hinit]⟩
    obtain ⟨hq, -, hd, hc⟩ := hoff (hinit ▸ hi)
    exact ⟨hphy.trans hq, hfs, hpins ▸ hd, hpins ▸ hc⟩
  | init hu hphy hscl hsda hinit =>
    exact busOk_iff.mpr ⟨by simp [hphy], by simp [hinit], fun _ => ⟨hsda, by simp [hscl]⟩, by simp [hinit]⟩
  | deinit hset hphy hfs hscl hsda hinit =>
    refine busOk_iff.mpr ⟨by simp [hphy], fun _ => ⟨hphy, hfs, hsda, by simp [hscl]⟩, by simp [hinit], fun _ i hi => ?_⟩
    have hop : r.op = .deinit := by
      rw [hset] at hu
      simpa [standsAt] using (Bool.and_eq_true_iff.mp hu).2
    rw [← muOp_running hi, hop]
    rfl

theorem seqStep_busOk {s : State} (hok : SequencerOk s) (hs : BusOk s) : BusOk (seqStep s) := by
  cases hr : s.seq with
  | idle => rwa [seqStep_idle hr]
  | run r =>
    obtain ⟨u, -, hu, h⟩ := seqStep_standsAt hok hr
    exact h ▸ muOp_busOk hs hr hu

theorem phyStep_busOk {s : State} (hs : BusOk s) : BusOk (phyStep s) := by
  rcases phyStep_phy s with hphy | ⟨-, hbusy, hphy⟩
  · rw [phyStep_eq, hphy]
    exact hs
  · obtain ⟨-, hoff, hon, -⟩ := busOk_iff.mp hs
    have hi : s.initd = true := by
      by_contra hi
      obtain ⟨hq, -⟩ := hoff (by simpa using hi)
      exact hbusy (by rw [hq])
    rw [phyStep_eq]
    exact busOk_iff.mpr ⟨by simp [hphy], by simp [hi], hon, by simp [hi]⟩

/-! ### SCL as a GPIO -/

theorem sclOk_of_not_gpio {s : State} (h : s.pins.sclOwner ≠ .gpio) : SclOk s := fun hg => absurd hg h

/-- `SclOk` speaks of SCL's owner and S.seq alone. -/
theorem sclOk_congr {s s' : State} (h : SclOk s) (hpins : s'.pins = s.pins) (hseq : s'.seq = s.seq) : SclOk s' := by
  unfold SclOk
  rw [hpins, hseq]
  exact h

theorem hostStep_sclOk {s s' : State} (hs : SclOk s) (h : hostStep s = .next s') : SclOk s' := by
  have hin := hostStep_inner h
  simp only [State.inner, Inner.mk.injEq] at hin
  obtain ⟨-, -, -, -, -, hpins, -⟩ := hin
  rcases hostStep_seq h with hseq | ⟨hidle, -⟩
  · exact sclOk_congr hs hpins hseq
  · refine sclOk_of_not_gpio fun hg => ?_
    obtain ⟨r, hr, -⟩ := hs (hpins ▸ hg)
    rw [hidle] at hr
    cases hr

/-- The commands that recover. -/
theorem recovers_iff {i : Instr} : recovers i = true ↔ i = .recover ∨ i = .uvRead := by cases i <;> simp [recovers]

/-- A program that recovers is longer than the recovery segment's last micro-op but one. -/
theorem recovers_length {i : Instr} (h : recovers i = true) : 36 < (program i).length := by
  have hrec : recovery.length = 38 := rfl
  rcases recovers_iff.mp h with rfl | rfl
  · simp [program, recoverProgram, hrec]
  · simp only [program, uvReadProgram, List.length_append, hrec]
    omega

/-- After SCL_TAKE a recovery drives SCL or waits for a phase, until SCL_RESTORE at 35. -/
theorem standsAt_pulse {i : Instr} {k : Nat} {u : MuOp} (h : standsAt i k u = true) (hrec : recovers i = true)
    (hlo : 3 ≤ k) (hhi : k < 36) : u = .sclRestore ∨ (∃ l, u = .sclDrive l) ∨ ∃ ms, u = .delay ms := by
  have hin : outsideRecovery i k = false := by
    have hlen : recoveryLength = 38 := by decide
    have hble : Nat.ble 38 k = false := Bool.eq_false_iff.mpr fun h => by have := Nat.le_of_ble_eq_true h; omega
    simp [outsideRecovery, hrec, hlen, hble]
  cases u with
  | sclRestore => exact .inl rfl
  | sclDrive l => exact .inr (.inl ⟨l, rfl⟩)
  | delay ms => exact .inr (.inr ⟨ms, rfl⟩)
  | _ => simp [standsAt, hin] at h <;> omega

/-- From SCL_TAKE and from a pulse's micro-ops the command goes to the next micro-op. -/
theorem muOp_next {u : MuOp} {r : Run} (s : State) (hu : u = .sclTake ∨ (∃ l, u = .sclDrive l) ∨ ∃ ms, u = .delay ms)
    (hlen : r.step + 1 < r.prog.length) :
    ∃ r', (u.run r s).seq = .run r' ∧ r'.op = r.op ∧ r'.step = r.step + 1 := by
  refine ⟨{ r with step := r.step + 1, iter := 0 }, ?_, rfl, rfl⟩
  rcases hu with rfl | ⟨l, rfl⟩ | ⟨ms, rfl⟩ <;> simp [MuOp.run, advance, advanceTo_lt hlen]

/-- SCL is a GPIO after a SEQ step where SCL_TAKE made it one, or where it was one and SCL_RESTORE did not run. -/
theorem muOp_gpio {u : MuOp} {r : Run} {s : State} (h : (u.run r s).pins.sclOwner = .gpio) :
    u = .sclTake ∨ (u ≠ .sclRestore ∧ s.pins.sclOwner = .gpio) := by
  have hrestore : restoredOwner s ≠ .gpio := by unfold restoredOwner; split <;> decide
  by_cases hu : u = .sclRestore
  · subst hu
    exact absurd (by simpa [MuOp.run, advance] using h) hrestore
  · cases muOp_busMoves u r s with
    | still hphy hfs hscl hsda hinit => exact .inr ⟨hu, hscl ▸ h⟩
    | issue hiss hphy hfs hpins hinit => exact .inr ⟨hu, hpins ▸ h⟩
    | take htake hphy hfs hscl hsda hinit => exact .inl htake
    | restore hres hphy hfs hscl hsda hinit => exact absurd hres hu
    | finish hfin hphy hfs hpins hinit => exact .inr ⟨hu, hpins ▸ h⟩
    | init hset hphy hscl hsda hinit => rw [hscl] at h; cases h
    | deinit hset hphy hfs hscl hsda hinit => rw [hscl] at h; cases h

/-- A recovery keeps SCL a GPIO from SCL_TAKE to SCL_RESTORE, and no other micro-op makes it one. -/
theorem muOp_sclOk {u : MuOp} {r : Run} {s : State} (hok : SequencerOk s) (hs : SclOk s) (hr : s.seq = .run r)
    (hu : standsAt r.op r.step u = true) : SclOk (u.run r s) := by
  intro hg
  obtain ⟨hprog, -, -⟩ := hok r hr
  have hmax : 4 + 4 * Config.RECOVERY_PULSES = 36 := by decide
  rcases muOp_gpio hg with rfl | ⟨hnot, hgpio⟩
  · obtain ⟨hrec, hstep⟩ : recovers r.op = true ∧ r.step = 2 := by simpa [standsAt] using hu
    have hlen := recovers_length hrec
    obtain ⟨r', hr', hop', hstep'⟩ := muOp_next s (.inl rfl) (r := r) (by rw [hprog]; omega)
    exact ⟨r', hr', hop' ▸ recovers_iff.mp hrec, by omega, by omega⟩
  · obtain ⟨r0, hr0, hop, hlo, hhi⟩ := hs hgpio
    obtain rfl := Sequencer.run.inj (hr.symm.trans hr0)
    have hrec := recovers_iff.mpr hop
    have hlen := recovers_length hrec
    have hpulse := (standsAt_pulse hu hrec hlo (hmax ▸ hhi)).resolve_left hnot
    have h34 : r.step < 35 := by
      rcases hpulse with ⟨l, rfl⟩ | ⟨ms, rfl⟩ <;> simp [standsAt] at hu <;> omega
    obtain ⟨r', hr', hop', hstep'⟩ := muOp_next s (.inr hpulse) (r := r) (by rw [hprog]; omega)
    exact ⟨r', hr', hop' ▸ hop, by omega, by omega⟩

theorem seqStep_sclOk {s : State} (hok : SequencerOk s) (hs : SclOk s) : SclOk (seqStep s) := by
  cases hr : s.seq with
  | idle => rwa [seqStep_idle hr]
  | run r =>
    obtain ⟨u, -, hu, h⟩ := seqStep_standsAt hok hr
    exact h ▸ muOp_sclOk hok hs hr hu

theorem phyStep_sclOk {s : State} (hs : SclOk s) : SclOk (phyStep s) :=
  sclOk_congr hs (by rw [phyStep_eq]) (by rw [phyStep_eq])

theorem powerOn_busOk (s : State) : BusOk (powerOn s) :=
  busOk_iff.mpr ⟨by simp [State.reset], fun _ => ⟨rfl, rfl, rfl, by simp [State.reset]⟩, by simp [State.reset],
    by simp [State.reset]⟩

theorem powerOn_sclOk (s : State) : SclOk (powerOn s) := sclOk_of_not_gpio (by simp [State.reset])

/-- Settles O44: the three invariants of S.seq, the PHY and the lines are kept together. -/
theorem stepKeepsBusOk : Obligations.StepKeepsBusOk := by
  intro s s' h hstep
  refine (step_keeps (P := fun s => SequencerOk s ∧ BusOk s ∧ SclOk s) (fun _ _ _ h => h) ?_ ?_ ?_ ?_ h hstep).2
  · rintro s s' ⟨hok, hbus, hscl⟩ h
    exact ⟨hostStep_sequencerOk hok h, hostStep_busOk hbus h, hostStep_sclOk hscl h⟩
  · rintro s ⟨hok, hbus, hscl⟩
    exact ⟨seqStep_sequencerOk hok, seqStep_busOk hok hbus, seqStep_sclOk hok hscl⟩
  · rintro s ⟨hok, hbus, hscl⟩
    exact ⟨phyStep_sequencerOk hok, phyStep_busOk hbus, phyStep_sclOk hscl⟩
  · exact fun s => ⟨powerOn_sequencerOk s, powerOn_busOk s, powerOn_sclOk s⟩

/-! ### The recorded conditions -/

/-- The STATUS part of `RecordOk`. -/
def StatusOk (st : Status) : Prop :=
  (st.err = false ↔ st.errcode = .none) ∧ (st.stuck = true → st.recovered = true)

theorem recordOk_iff {s : State} : RecordOk s ↔ StatusOk s.status ∧ s.res.extractLsb' 16 16 = 0#16 :=
  and_assoc.symm

theorem hostRecords_statusOk {s s' : State} (hs : StatusOk s.status) (h : HostRecords s s') : StatusOk s'.status := by
  obtain ⟨herr, hstuck⟩ := hs
  cases h with
  | nothing hst => rw [hst]; exact ⟨herr, hstuck⟩
  | dropped hb hst => rw [hst]; exact ⟨herr, hstuck⟩
  | raised c hc hi hst =>
    rcases raiseCmdError_cases c s with ⟨-, h⟩ | ⟨-, h⟩ <;> rw [hst, h]
    · exact ⟨by simp [hc], hstuck⟩
    · exact ⟨herr, hstuck⟩
  | cleared v hst =>
    rw [hst]
    refine ⟨?_, hstuck⟩
    cases hv : v.getLsbD 8
    · simpa only [clearStatus, hv, Bool.not_false, Bool.and_true, Bool.false_eq_true, if_false] using herr
    · simp [clearStatus, hv]

theorem records_statusOk {u : MuOp} {r : Run} {s s' : State} (hs : StatusOk s.status) (h : Records u r s s') :
    StatusOk s'.status := by
  obtain ⟨herr, hstuck⟩ := hs
  cases h with
  | high target hu hst hdiag => rw [hst]; exact ⟨herr, by simp⟩
  | recovered s1 hu hst hdiag => rw [hst]; exact ⟨herr, by simp⟩
  | _ => rw [‹s'.status = _›]; exact ⟨herr, hstuck⟩

/-- A value of at most 16 bits has no bits [31:16]. -/
theorem extractLsb'_high_setWidth {w : Nat} (hw : w ≤ 16) (x : BitVec w) :
    (x.setWidth 32).extractLsb' 16 16 = 0#16 := by
  refine BitVec.eq_of_getLsbD_eq fun i hi => ?_
  simp [BitVec.getLsbD_of_ge x (16 + i) (by omega)]

/-- Every SEQ step keeps RES[31:16] = 0 (10_state.md R28). -/
theorem muOp_res_high (u : MuOp) (r : Run) {s : State} (h : s.res.extractLsb' 16 16 = 0#16) :
    (u.run r s).res.extractLsb' 16 16 = 0#16 := by
  have hres : (u.run r s).res = (u.results r s).res := congrArg Results.res (muOp_results u r s)
  rw [hres]
  unfold MuOp.results
  split
  · exact show (bitWord _).extractLsb' 16 16 = 0#16 by unfold bitWord; split <;> decide
  · exact extractLsb'_high_setWidth (by omega) _
  · rename_i e
    cases e with
    | light => exact extractLsb'_high_setWidth (by omega) (lightValue r.t0 r.t1)
    | uvVal dst => rcases dst with - | (- | - | - | -) <;> exact extractLsb'_high_setWidth (by omega) (uvValue r.t0 r.t1)
    | _ => simpa [SetOp.apply, State.results] using h
  · exact h

theorem powerOn_recordOk (s : State) : RecordOk (powerOn s) := by
  refine ⟨?_, ?_, ?_⟩ <;> simp [State.reset]

/-- Settles O45: an error's code is never `none`, STUCK is written with RECOVERED, and every value put into RES has at most
16 bits. -/
theorem stepKeepsRecordOk : Obligations.StepKeepsRecordOk := by
  intro s s'
  refine step_keeps (fun _ _ _ h => h) ?_ ?_ ?_ powerOn_recordOk
  · intro s s' hs h
    obtain ⟨hst, hres⟩ := recordOk_iff.mp hs
    have hin : s'.res = s.res := congrArg Inner.res (hostStep_inner h)
    exact recordOk_iff.mpr ⟨hostRecords_statusOk hst (hostStep_records h), hin ▸ hres⟩
  · intro s hs
    refine seqStep_keeps hs hs fun u r _ _ => ?_
    obtain ⟨hst, hres⟩ := recordOk_iff.mp hs
    exact recordOk_iff.mpr ⟨records_statusOk hst (muOp_records u r s), muOp_res_high u r hres⟩
  · intro s hs
    rw [phyStep_eq]
    exact hs

/-! ### The FRAME buffer -/

/-- `FrameOk` speaks of FRAME and FRAME_VALID alone. -/
theorem frameOk_congr {s s' : State} (h : FrameOk s) (hframe : s'.frame = s.frame)
    (hvalid : s'.status.frameValid = s.status.frameValid) : FrameOk s' := by
  unfold FrameOk frameByte
  rw [hframe, hvalid]
  exact h

theorem frameBody_length (s : State) : (frameBody s).length = 48 := by
  simp [frameBody, be16, be32, le32, zeros]

theorem frameBytes_length (s : State) : (frameBytes s).length = 50 := by
  simp [frameBytes, frameBody_length, le16]

/-- The fields of the frame that 43_frame.md R175 fixes: the length, the two reserved fields, the checksum. -/
theorem frameBytes_fixed (s : State) :
    (frameBytes s)[0]? = some 50 ∧ ((frameBytes s).drop 20).take 4 = zeros 4 ∧
    ((frameBytes s).drop 34).take 14 = zeros 14 ∧ (frameBytes s).drop 48 = le16 (frameChecksum s) := by
  simp [frameBytes, frameBody, be16, be32, le32, zeros, Config.FRAME_LEN]

/-- A byte of a run of zeros. -/
theorem getElem?_of_zeros {l : List Byte} {n k i : Nat} (h : (l.drop n).take k = zeros k) (hlo : n ≤ i)
    (hhi : i < n + k) : l[i]? = some 0 := by
  have hi : ((l.drop n).take k)[i - n]? = some 0 := by
    rw [h, zeros, List.getElem?_replicate, if_pos (by omega)]
  rwa [List.getElem?_take, if_pos (by omega), List.getElem?_drop, Nat.add_sub_cancel' hlo] at hi

/-- The stored frame reads back byte by byte. -/
theorem frameByte_frameEffect {s : State} (h : s.frame.wf) {i : Nat} (hi : i < 50) :
    (frameBytes s)[i]? = some (frameByte (frameEffect s) i) := by
  have hlt : i < (frameBytes s).length := by rwa [frameBytes_length]
  rw [frameByte, frameEffect_frame, memory_read_writeBytes h _ _ _ hlt, List.getElem?_eq_getElem hlt]

/-- The first 48 bytes read back are those the checksum covers. -/
theorem readBytes_frameEffect {s : State} (h : s.frame.wf) :
    (frameEffect s).frame.readBytes FRAME_BASE Config.CK_COVER = (frameBody s).take Config.CK_COVER := by
  have hall : Config.CK_COVER ≤ (frameBytes s).length := by rw [frameBytes_length]; decide
  have hbody : Config.CK_COVER ≤ (frameBody s).length := by rw [frameBody_length]; decide
  rw [frameEffect_frame, memory_readBytes_writeBytes h _ _ _ hall, frameBytes, List.take_append_of_le_length hbody]

/-- The two bytes of the checksum, low byte first, make it again. -/
theorem append_le16 (x : Half) : x.extractLsb' 8 8 ++ x.extractLsb' 0 8 = x := by
  refine BitVec.eq_of_getLsbD_eq fun i hi => ?_
  rw [BitVec.getLsbD_append]
  by_cases h : i < 8
  · simp [h]
  · simp [h, show 8 + (i - 8) = i by omega, show i - 8 < 8 by omega]

/-- FR.BUILD makes a frame of 43_frame.md R175, whatever FRAME held. -/
theorem frameEffect_frameOk {s : State} (hs : FrameOk s) : FrameOk (frameEffect s) := by
  obtain ⟨hwf, hin, -, -⟩ := hs
  have hbyte {i : Nat} {b : Byte} (hi : i < 50) (h : (frameBytes s)[i]? = some b) : frameByte (frameEffect s) i = b :=
    Option.some.inj ((frameByte_frameEffect hwf hi).symm.trans h)
  obtain ⟨hlen, hres1, hres2, hck⟩ := frameBytes_fixed s
  have hlow : frameByte (frameEffect s) 48 = (frameChecksum s).extractLsb' 0 8 :=
    hbyte (by omega) (by rw [show 48 = 48 + 0 from rfl, ← List.getElem?_drop, hck]; rfl)
  have hhigh : frameByte (frameEffect s) 49 = (frameChecksum s).extractLsb' 8 8 :=
    hbyte (by omega) (by rw [show 49 = 48 + 1 from rfl, ← List.getElem?_drop, hck]; rfl)
  refine ⟨frameEffect_wf hwf, fun c hc => ?_, by simp, fun _ => ⟨hbyte (by omega) hlen, ?_, ?_, ?_⟩⟩
  · rw [frameEffect_frame] at hc
    have hc' := memory_mem_writeBytes hc
    rw [frameBytes_length] at hc'
    exact hc'.elim (hin c) id
  · exact fun i hlo hhi => hbyte (by omega) (getElem?_of_zeros hres1 hlo hhi)
  · exact fun i hlo hhi => hbyte (by omega) (getElem?_of_zeros hres2 hlo hhi)
  · rw [hlow, hhigh, readBytes_frameEffect hwf, append_le16, frameChecksum]

/-- A SEQ step other than FR.BUILD's leaves FRAME and FRAME_VALID. -/
theorem muOp_frameOk (u : MuOp) (r : Run) {s : State} (hs : FrameOk s) : FrameOk (u.run r s) := by
  by_cases hu : u = .set .frame
  · subst hu
    exact frameOk_congr (frameEffect_frameOk hs) (by simp [MuOp.run, advance, SetOp.apply])
      (by simp [MuOp.run, advance, SetOp.apply])
  · refine frameOk_congr hs (muOp_frame u r s hu) ?_
    cases muOp_records u r s with
    | built hset hst hdiag => exact absurd hset hu
    | _ => rw [‹(u.run r s).status = _›]

theorem powerOn_frameOk (s : State) : FrameOk (powerOn s) :=
  ⟨memory_wf_nil, fun c hc => absurd hc List.not_mem_nil, fun _ => rfl, fun h => absurd h (by simp [State.reset])⟩

/-- Settles O46: FR.BUILD makes a whole frame, and nothing else writes FRAME or FRAME_VALID. -/
theorem stepKeepsFrameOk : Obligations.StepKeepsFrameOk := by
  intro s s'
  refine step_keeps (fun _ _ _ h => h) ?_ ?_ ?_ powerOn_frameOk
  · intro s s' hs h
    obtain ⟨hvalid, -⟩ := hostRecords_keeps (hostStep_records h)
    exact frameOk_congr hs (congrArg Inner.frame (hostStep_inner h)) hvalid
  · exact fun s hs => seqStep_keeps hs hs fun u r _ _ => muOp_frameOk u r hs
  · intro s hs
    rw [phyStep_eq]
    exact hs

/-! ### Reset -/

/-- Settles O47: the invariants hold as they do after a reset turn; the rows of R59 are the reset state's own fields. -/
theorem resetMeetsTheInvariants : Obligations.ResetMeetsTheInvariants := by
  refine ⟨powerOn_sequencerOk State.reset, powerOn_busOk State.reset, powerOn_sclOk State.reset,
    powerOn_recordOk State.reset, powerOn_frameOk State.reset, by decide, rfl, rfl, rfl, rfl, rfl, fun _ => rfl, rfl, rfl,
    ⟨rfl, rfl, rfl, rfl⟩, ⟨rfl, rfl, rfl, rfl, rfl, rfl, rfl, rfl, rfl, rfl, rfl⟩, rfl,
    ⟨rfl, rfl, rfl, rfl, rfl, rfl, rfl⟩, fun s => ⟨powerOn s, rfl, rfl⟩⟩

end Sys2Proof.Machine
end

section
/-! PROOFS. Rules of every turn: the counters, the trace, what the host leaves alone, the latches, the poisoned PHY, the
effect of an issue, and the end of every command. -/

namespace Sys2Proof.Machine

/-! ### The HOST turn -/

/-- Settles O51: a HOST turn leaves the inside of the block, and S.seq while a command runs. -/
theorem hostTurnLeavesTheBus : Obligations.HostTurnLeavesTheBus := by
  intro s s' h
  have hin := hostStep_inner h
  simp only [State.inner, Inner.mk.injEq] at hin
  obtain ⟨hphy, hci, hack, hrx, hfs, hpins, htrace, hinit, hframe, hres, hclk, hladdr, hdiag, henv⟩ := hin
  exact ⟨hphy, hci, hack, hrx, hfs, hpins, htrace, hinit, hframe, hres, hclk, hladdr, hdiag, henv, hostStep_seq_busy h⟩

/-! ### The counters -/

/-- A SEQ step adds at most 1 to each counter. -/
def CountsUp (d d' : Diag) : Prop :=
  (d'.tmo = d.tmo ∨ d'.tmo = d.tmo + 1) ∧ (d'.nack = d.nack ∨ d'.nack = d.nack + 1) ∧
  (d'.recov = d.recov ∨ d'.recov = d.recov + 1) ∧ (d'.coll = d.coll ∨ d'.coll = d.coll + 1)

theorem countsUp_refl (d : Diag) : CountsUp d d := ⟨.inl rfl, .inl rfl, .inl rfl, .inl rfl⟩

theorem records_countsUp {u : MuOp} {r : Run} {s s' : State} (h : Records u r s s') : CountsUp s.diag s'.diag := by
  cases h with
  | timeout hu hiter hst hdiag => rw [hdiag]; exact ⟨.inr rfl, .inl rfl, .inl rfl, .inl rfl⟩
  | ack toRes a hu hst hdiag =>
    rw [hdiag]
    refine ⟨.inl rfl, ?_, .inl rfl, .inl rfl⟩
    cases a
    · exact .inl rfl
    · exact .inr rfl
  | recovered s1 hu hst hdiag => rw [hdiag]; exact ⟨.inl rfl, .inl rfl, .inr rfl, .inl rfl⟩
  | collision hu hclean hbusy hphy hst hdiag => rw [hdiag]; exact ⟨.inl rfl, .inl rfl, .inl rfl, .inr rfl⟩
  | _ => rw [‹s'.diag = _›]; exact countsUp_refl _

/-- Settles O49: each SEQ step records at most one event of each kind, and no other turn counts. -/
theorem diagnosticCountersOnlyCountUp : Obligations.DiagnosticCountersOnlyCountUp := by
  intro t s s' h ht
  suffices hs : (t ≠ .seq → s'.diag = s.diag) ∧ CountsUp s.diag s'.diag from hs
  cases t with
  | host =>
    have hdiag : s'.diag = s.diag := congrArg Inner.diag (hostStep_inner h)
    exact ⟨fun _ => hdiag, hdiag ▸ countsUp_refl _⟩
  | seq =>
    obtain rfl := Host.Outcome.next.inj h
    exact ⟨fun hne => absurd rfl hne, seqStep_keeps (P := fun q => CountsUp s.diag q.diag) (countsUp_refl _)
      (countsUp_refl _) fun u r _ _ => records_countsUp (muOp_records u r s)⟩
  | phy =>
    obtain rfl := Host.Outcome.next.inj h
    rw [phyStep_eq]
    exact ⟨fun _ => rfl, countsUp_refl _⟩
  | reset => exact absurd rfl ht

/-! ### The trace -/

theorem trace_extends_of_logs {s s' : State} (h : Logs s s') : s.trace <+: s'.trace := by
  obtain ⟨l, hl, -⟩ := h
  exact ⟨l, hl.symm⟩

theorem seqStep_logs (s : State) : Logs s (seqStep s) :=
  seqStep_keeps (P := Logs s) (logs_of_trace_eq rfl) (logs_of_trace_eq rfl) fun u r _ _ => muOp_logs u r s

theorem phyStep_trace (s : State) : ∃ l, (phyStep s).trace = s.trace ++ l := by
  rcases phyStep_cases s with ⟨-, h⟩ | ⟨b, -, h⟩ | ⟨-, h⟩ | ⟨a, -, h⟩ <;> rw [h]
  · exact ⟨[], by simp⟩
  all_goals exact ⟨_, rfl⟩

/-- Settles O50: SEQ and PHY turns log at the end of the trace, HOST turns log nothing. -/
theorem traceOnlyGrows : Obligations.TraceOnlyGrows := by
  intro t s s' h ht
  cases t with
  | host =>
    have htrace : s'.trace = s.trace := congrArg Inner.trace (hostStep_inner h)
    exact trace_extends_of_logs (logs_of_trace_eq htrace)
  | seq => exact Host.Outcome.next.inj h ▸ trace_extends_of_logs (seqStep_logs s)
  | phy =>
    obtain ⟨l, hl⟩ := phyStep_trace s
    exact Host.Outcome.next.inj h ▸ ⟨l, hl.symm⟩
  | reset => exact absurd rfl ht

/-! ### The poisoned PHY -/

theorem phyStep_poisoned {s : State} (h : s.phy.poisoned = true) : phyStep s = s := by simp [phyStep, h]

/-- Settles O42: the draws are the poisoned branch of each observation, and a SEQ step logs while the PHY is poisoned, if
it logs. -/
theorem poisonedPhyAnswersAreDraws : Obligations.PoisonedPhyAnswersAreDraws := by
  intro s h
  obtain ⟨l, hl, hunrel⟩ := seqStep_logs s
  exact ⟨by simp [pollIdle, h], by simp [pollCi, h], by simp [obsAck, h], by simp [obsRx, h], phyStep_poisoned h, l, hl,
    hunrel h⟩

/-! ### Issues and conditions -/

theorem isOpen_not (fs : Framing) : (!fs.isOpen) = decide (fs = .idle) := by cases fs <;> rfl

theorem framing_eq (c : Cond) : c.framing = if c = .stop then .idle else .opened := by cases c <;> rfl

theorem unframed_eq (c : Cond) (fs : Framing) : c.unframed fs = decide (c ≠ .start ∧ fs = .idle) := by
  cases c <;> cases fs <;> rfl

theorem reopen_eq (c : Cond) (fs : Framing) : c.reopen fs = decide (c = .start ∧ fs = .opened) := by
  cases c <;> cases fs <;> rfl

/-- What stands of the state after a collision: the PHY is given up, COLL and DIAG_COLL record it (40_transport.md R108). -/
theorem collide_eq (x : Collider) {s : State} (h : s.phy.poisoned = false) :
    collide x s = { s with
      phy := ⟨none, true⟩, status := { s.status with coll := true }, diag := { s.diag with coll := s.diag.coll + 1 },
      trace := s.trace ++ [plain (.collision x)] } := by
  simp [collide, log, logFlagged, plain, h]

/-- Settles O41: each of the three sources of a collision, on a poisoned, a busy and a free PHY. -/
theorem issueConditionAndCollision : Obligations.IssueConditionAndCollision := by
  intro s o c
  refine ⟨fun hp => ⟨?_, ?_, ?_⟩, fun hp hbusy => ⟨?_, ?_, ?_⟩, fun hfree => ⟨?_, ?_, ?_⟩⟩
  · simp [phyIssue, hp, logFlagged, isOpen_not]
  · simp [phyCond, emitCond, hp, logFlagged, framing_eq, unframed_eq, reopen_eq]
  · simp [takeScl, hp, log, logFlagged, plain, Record.unreliable]
  · simp [phyIssue, hp, inFlight_eq_true.mpr hbusy, collide_eq _ hp]
  · simp [phyCond, emitCond, hp, inFlight_eq_true.mpr hbusy, collide_eq _ hp, framing_eq]
  · simp [takeScl, hp, inFlight_eq_true.mpr hbusy, collide_eq _ hp, log, logFlagged, plain, Record.unreliable]
  · simp [phyIssue, hfree, logFlagged, isOpen_not]
  · simp [phyCond, emitCond, hfree, logFlagged, framing_eq, unframed_eq, reopen_eq]
  · simp [takeScl, hfree, log, logFlagged, plain]

/-! ### The latches -/

/-- Who writes the latches and STATUS.ACK in a SEQ turn: INIT the two buffers, CAP_ACK the bit, none sets S.ci. -/
theorem seqStep_latches {s : State} (hok : SequencerOk s) :
    (s.ci = false → (seqStep s).ci = false) ∧
    ((seqStep s).ackstat ≠ s.ackstat ∨ (seqStep s).rxbuf ≠ s.rxbuf → s.running = some .init) ∧
    ((seqStep s).status.ack ≠ s.status.ack →
      ∃ r toRes, s.seq = .run r ∧ r.prog[r.step]? = some (.capAck toRes)) := by
  cases hr : s.seq with
  | idle => simp [seqStep_idle hr]
  | run r =>
    obtain ⟨u, hu, hstands, h⟩ := seqStep_standsAt hok hr
    rw [h]
    refine ⟨fun hci => ?_, fun hne => ?_, fun hne => ?_⟩
    · rcases muOp_ci u r s with h | h
      · exact h.trans hci
      · exact h
    · rcases muOp_buffers u r s with hset | ⟨hack, hrx⟩
      · have hop : r.op = .init := by
          rw [hset] at hstands
          simpa [standsAt] using (Bool.and_eq_true_iff.mp hstands).2
        exact running_eq_some.mpr ⟨r, hr, hop⟩
      · simp [hack, hrx] at hne
    · obtain ⟨hprog, -, -⟩ := hok r hr
      cases muOp_records u r s with
      | ack toRes a hack hst hdiag => exact ⟨r, toRes, rfl, by rw [hprog, hu, hack]⟩
      | _ => simp [‹(u.run r s).status = _›] at hne

/-- Who writes the latches in a PHY turn: the completion of a TX, S.ackstat and S.ci; of an RX, S.rxbuf. -/
theorem phyStep_latches (s : State) :
    ((∃ b, s.phy.pending = some (.tx b)) ∨ ((phyStep s).ci = s.ci ∧ (phyStep s).ackstat = s.ackstat)) ∧
    (s.phy.pending = some .rx ∨ (phyStep s).rxbuf = s.rxbuf) := by
  rcases phyStep_cases s with ⟨-, h⟩ | ⟨b, hphy, h⟩ | ⟨hphy, h⟩ | ⟨a, hphy, h⟩ <;> rw [h]
  · exact ⟨.inr ⟨rfl, rfl⟩, .inr rfl⟩
  · exact ⟨.inl ⟨b, by rw [hphy]⟩, .inr rfl⟩
  · exact ⟨.inr ⟨rfl, rfl⟩, .inl (by rw [hphy])⟩
  · exact ⟨.inr ⟨rfl, rfl⟩, .inr rfl⟩

/-- Settles O52: the completions and INIT write the latches, CAP_ACK writes STATUS.ACK. -/
theorem latchesHaveOneWriter : Obligations.LatchesHaveOneWriter := by
  intro t s s' hok h ht
  cases t with
  | host =>
    have hin := hostStep_inner h
    simp only [State.inner, Inner.mk.injEq] at hin
    obtain ⟨-, hci, hack, hrx, -⟩ := hin
    obtain ⟨-, hst, -⟩ := hostRecords_keeps (hostStep_records h)
    exact ⟨fun h0 h1 => by simp [hci, h0] at h1, fun hne => absurd hack hne, fun hne => absurd hrx hne,
      fun hne => absurd hst hne⟩
  | seq =>
    obtain rfl := Host.Outcome.next.inj h
    obtain ⟨hci, hinit, hack⟩ := seqStep_latches hok
    exact ⟨fun h0 h1 => by simp [hci h0] at h1, fun hne => .inr ⟨rfl, hinit (.inl hne)⟩,
      fun hne => .inr ⟨rfl, hinit (.inr hne)⟩, fun hne => ⟨rfl, hack hne⟩⟩
  | phy =>
    obtain rfl := Host.Outcome.next.inj h
    obtain ⟨htx, hrx⟩ := phyStep_latches s
    have hst : (phyStep s).status = s.status := by rw [phyStep_eq]
    refine ⟨fun h0 h1 => ⟨rfl, ?_⟩, fun hne => .inl ⟨rfl, ?_⟩, fun hne => .inl ⟨rfl, ?_⟩, fun hne => ?_⟩
    · exact htx.resolve_right fun ⟨hci, _⟩ => by simp [hci, h0] at h1
    · exact htx.resolve_right fun ⟨_, hack⟩ => hne hack
    · exact hrx.resolve_right hne
    · exact absurd (by rw [hst]) hne
  | reset => exact absurd rfl ht

/-! ### Every command ends -/

/-- How many SEQ steps a run can still take: RETRY_MAX for each micro-op left, less the polls already made. -/
def stepsLeft (r : Run) : Nat := (r.prog.length - r.step) * Config.RETRY_MAX - r.iter

/-- Below RETRY_MAX polls, a run inside its program has steps left. -/
theorem stepsLeft_pos {r : Run} (hstep : r.step < r.prog.length) (hiter : r.iter < Config.RETRY_MAX) :
    0 < stepsLeft r := by
  have hle : 1 * Config.RETRY_MAX ≤ (r.prog.length - r.step) * Config.RETRY_MAX := Nat.mul_le_mul_right _ (by omega)
  unfold stepsLeft
  omega

/-- Moving on to a later micro-op, with the poll count at 0, leaves fewer steps. -/
theorem stepsLeft_goto {r r' : Run} (hprog : r'.prog = r.prog) (hiter' : r'.iter = 0) (hlt : r.step < r'.step)
    (hstep : r'.step < r.prog.length) (hiter : r.iter < Config.RETRY_MAX) : stepsLeft r' < stepsLeft r := by
  have hle : (r.prog.length - r'.step + 1) * Config.RETRY_MAX ≤ (r.prog.length - r.step) * Config.RETRY_MAX :=
    Nat.mul_le_mul_right _ (by omega)
  rw [Nat.add_mul, Nat.one_mul] at hle
  unfold stepsLeft
  rw [hprog, hiter']
  omega

/-- BR_HIGH branches forward, over the recovery. -/
theorem standsAt_brHigh {i : Instr} {k target : Nat} (h : standsAt i k (.brHigh target) = true) : k < target := by
  obtain ⟨⟨-, hk⟩, htarget⟩ : (recovers i = true ∧ k = 1) ∧ target = recoveryLength := by simpa [standsAt] using h
  have hlen : recoveryLength = 38 := by decide
  omega

/-- A SEQ step ends the command or leaves fewer steps. -/
theorem seqStep_stepsLeft {s : State} {r : Run} (hok : SequencerOk s) (hr : s.seq = .run r) :
    (seqStep s).seq = .idle ∨ ∃ r', (seqStep s).seq = .run r' ∧ stepsLeft r' < stepsLeft r := by
  obtain ⟨u, -, hstands, h⟩ := seqStep_standsAt hok hr
  obtain ⟨-, hstep, hiter⟩ := hok r hr
  rw [h]
  cases muOp_seqMoves u r s with
  | finish n hn hend hseq => exact .inl hseq
  | poll hu hlt hseq =>
    have hpos := stepsLeft_pos (r := { r with iter := r.iter + 1 }) hstep hlt
    refine .inr ⟨_, hseq, ?_⟩
    unfold stepsLeft at hpos ⊢
    dsimp only at hpos ⊢
    omega
  | goto r' hop hprog hiter' hn hlt hseq =>
    refine .inr ⟨r', hseq, stepsLeft_goto hprog hiter' ?_ hlt hiter⟩
    rcases hn with hn | hn
    · omega
    · exact standsAt_brHigh (hn ▸ hstands)

/-- A turn of another agent leaves the run where it is. -/
theorem agentStep_run_kept {t : Turn} {s s' : State} {r : Run} (h : agentStep t s = .next s') (hr : s.seq = .run r)
    (hseq : t ≠ .seq) (hreset : t ≠ .reset) : s'.seq = .run r := by
  cases t with
  | host => rw [hostStep_seq_busy h (busy_of_run hr), hr]
  | seq => exact absurd rfl hseq
  | phy => rw [← Host.Outcome.next.inj h, phyStep_eq]; exact hr
  | reset => exact absurd rfl hreset

theorem agentStep_sequencerOk {t : Turn} {s s' : State} (hok : SequencerOk s) (h : agentStep t s = .next s') :
    SequencerOk s' := by
  cases t with
  | host => exact hostStep_sequencerOk hok h
  | seq => exact Host.Outcome.next.inj h ▸ seqStep_sequencerOk hok
  | phy => exact Host.Outcome.next.inj h ▸ phyStep_sequencerOk hok
  | reset => exact Host.Outcome.next.inj h ▸ powerOn_sequencerOk s

/-- A schedule with as many SEQ turns as the run has steps left brings it to its end. -/
theorem run_ends (ts : List Turn) {s : State} {r : Run} (hok : SequencerOk s) (hr : s.seq = .run r)
    (hreset : .reset ∉ ts) (hcount : stepsLeft r ≤ ts.count .seq) :
    ∃ k u, k ≤ ts.length ∧ runTurns (ts.take k) s = .next u ∧ u.seq = .idle := by
  induction ts generalizing s r with
  | nil =>
    obtain ⟨-, hstep, hiter⟩ := hok r hr
    have hpos := stepsLeft_pos hstep hiter
    simp only [List.count_nil] at hcount
    omega
  | cons t ts ih =>
    obtain ⟨s', hs'⟩ := agentStep_next t s
    have hrest : .reset ∉ ts := fun h => hreset (List.mem_cons_of_mem _ h)
    have hfirst : t ≠ .reset := fun h => hreset (h ▸ List.mem_cons_self)
    have hlater {r' : Run} (hr' : s'.seq = .run r') (hle : stepsLeft r' ≤ ts.count .seq) :
        ∃ k u, k ≤ (t :: ts).length ∧ runTurns ((t :: ts).take k) s = .next u ∧ u.seq = .idle := by
      obtain ⟨k, u, hk, hrun, hu⟩ := ih (agentStep_sequencerOk hok hs') hr' hrest hle
      exact ⟨k + 1, u, Nat.succ_le_succ hk, by simpa [runTurns, hs'] using hrun, hu⟩
    by_cases ht : t = .seq
    · subst ht
      rw [List.count_cons_self] at hcount
      obtain rfl := Host.Outcome.next.inj hs'
      rcases seqStep_stepsLeft hok hr with hidle | ⟨r', hr', hlt⟩
      · exact ⟨1, _, by simp, by simp, hidle⟩
      · exact hlater hr' (by omega)
    · rw [List.count_cons_of_ne ht] at hcount
      exact hlater (agentStep_run_kept hs' hr ht hfirst) hcount

/-- Settles O53, by induction on the schedule with the steps left as the bound. -/
theorem everyCommandEnds : Obligations.EveryCommandEnds := by
  intro s r ts hok hr hreset hcount
  refine run_ends ts hok hr hreset (Nat.le_trans ?_ hcount)
  exact Nat.le_trans (Nat.sub_le _ _) (Nat.mul_le_mul_right _ (Nat.sub_le _ _))

end Sys2Proof.Machine
end

section
/-! PROOFS. Which command may change each register and each STATUS field: what each part of the state's change says of the
micro-op, which commands hold that micro-op, and the two together. -/

namespace Sys2Proof.Machine

/-! ### From a change to the micro-op -/

/-- The micro-op that changed a result register. -/
theorem muOp_result_writer (u : MuOp) (r : Run) (s : State) :
    ((u.run r s).cnt ≠ s.cnt → u = .set .cntInc) ∧ ((u.run r s).light ≠ s.light → u = .set .light) ∧
    ((u.run r s).uva ≠ s.uva ∨ (u.run r s).uvb ≠ s.uvb ∨ (u.run r s).comp1 ≠ s.comp1 ∨ (u.run r s).comp2 ≠ s.comp2 →
      ∃ dst, u = .set (.uvVal (some dst))) ∧
    ((u.run r s).res ≠ s.res → u = .capAck true ∨ u = .capRx .res ∨ u = .set .light ∨ ∃ dst, u = .set (.uvVal dst)) ∧
    ((u.run r s).clkHz ≠ s.clkHz → u = .set .init) ∧ ((u.run r s).laddr ≠ s.laddr → ∃ hv, u = .set (.laddr hv)) ∧
    ((u.run r s).frame ≠ s.frame → u = .set .frame) := by
  have h := muOp_results u r s
  generalize u.run r s = s' at h
  unfold MuOp.results at h
  split at h
  case h_3 e =>
    cases e with
    | uvVal dst =>
      rcases dst with - | (- | - | - | -) <;> simp [SetOp.apply, State.results, uvValEffect] at h <;> simp [h]
    | _ =>
      simp [SetOp.apply, State.results] at h
      simp [h]
  all_goals
    simp only [State.results, Results.mk.injEq] at h
    simp [h]

section
variable {u : MuOp} {r : Run} {s s' : State}

theorem records_frameValid (h : Records u r s s') (hne : s'.status.frameValid ≠ s.status.frameValid) :
    u = .set .frame := by
  cases h with
  | built hu => exact hu
  | _ => simp [‹s'.status = _›] at hne

theorem records_recovery (h : Records u r s s')
    (hne : s'.status.stuck ≠ s.status.stuck ∨ s'.status.recovered ≠ s.status.recovered ∨ s'.diag.recov ≠ s.diag.recov) :
    (∃ target, u = .brHigh target) ∨ u = .recFinish := by
  cases h with
  | high target hu => exact .inl ⟨target, hu⟩
  | recovered s1 hu => exact .inr hu
  | _ => simp [‹s'.status = _›, ‹s'.diag = _›] at hne

theorem records_ack (h : Records u r s s') (hne : s'.status.ack ≠ s.status.ack) : ∃ toRes, u = .capAck toRes := by
  cases h with
  | ack toRes a hu => exact ⟨toRes, hu⟩
  | _ => simp [‹s'.status = _›] at hne

/-- DIAG_NACK counts a captured bit of 1. -/
theorem records_nack (h : Records u r s s') (hne : s'.diag.nack ≠ s.diag.nack) :
    (∃ toRes, u = .capAck toRes) ∧ s'.status.ack = true := by
  cases h with
  | ack toRes a hu hst hdiag =>
    refine ⟨⟨toRes, hu⟩, ?_⟩
    cases a
    · simp [hdiag] at hne
    · rw [hst]
  | _ => simp [‹s'.diag = _›] at hne

/-- No SEQ step clears TMO or COLL. -/
theorem records_keeps (h : Records u r s s') :
    (s.status.tmo = true → s'.status.tmo = true) ∧ (s.status.coll = true → s'.status.coll = true) := by
  cases h <;> simp +contextual [‹s'.status = _›]

theorem records_timeout (h : Records u r s s')
    (hne : s.status.tmo = false ∧ s'.status.tmo = true ∨ s'.diag.tmo ≠ s.diag.tmo) :
    u.isWait ∧ Config.RETRY_MAX ≤ r.iter + 1 ∧ s'.status.tmo = true := by
  cases h with
  | timeout hu hiter hst hdiag => exact ⟨hu, hiter, by rw [hst]⟩
  | _ => simp +contextual [‹s'.status = _›, ‹s'.diag = _›] at hne

theorem records_collision (h : Records u r s s')
    (hne : s.status.coll = false ∧ s'.status.coll = true ∨ s'.diag.coll ≠ s.diag.coll) :
    u.mayCollide = true ∧ s.phy.poisoned = false ∧ s.phy.pending ≠ none ∧ s'.status.coll = true ∧ s'.phy = ⟨none, true⟩ := by
  cases h with
  | collision hu hclean hbusy hphy hst hdiag => exact ⟨hu, hclean, hbusy, by rw [hst], hphy⟩
  | _ => simp +contextual [‹s'.status = _›, ‹s'.diag = _›] at hne

/-- No SEQ step records an error or a dropped write. -/
theorem records_errors (h : Records u r s s') :
    s'.status.err = s.status.err ∧ s'.status.errOvf = s.status.errOvf ∧ s'.status.errcode = s.status.errcode ∧
      s'.status.wwb = s.status.wwb := by
  cases h <;> simp [‹s'.status = _›]

theorem busMoves_initd (h : BusMoves u s s') (hne : s'.initd ≠ s.initd) : u = .set .init ∨ u = .set .deinit := by
  cases h with
  | init hu => exact .inl hu
  | deinit hu => exact .inr hu
  | _ => exact absurd ‹_› hne

/-- The end of a poisoning. -/
theorem busMoves_unpoisoned (h : BusMoves u s s') (h0 : s.phy.poisoned = true) (h1 : s'.phy.poisoned = false) :
    u = .set .init ∨ u = .set .deinit := by
  cases h with
  | init hu => exact .inl hu
  | deinit hu => exact .inr hu
  | issue hu hphy => rcases hphy with hphy | ⟨-, hphy⟩ | ⟨hfree, -⟩ <;> simp_all
  | take hu hphy => rcases hphy with hphy | ⟨-, hphy⟩ <;> simp_all
  | _ => simp_all

/-- The beginning of a poisoning. -/
theorem busMoves_poisoned (h : BusMoves u s s') (h0 : s.phy.poisoned = false) (h1 : s'.phy.poisoned = true) :
    u.mayCollide = true ∧ s.phy.pending ≠ none := by
  cases h with
  | issue hu hphy =>
    refine ⟨by cases u <;> simp_all [MuOp.issues, MuOp.mayCollide], ?_⟩
    rcases hphy with hphy | ⟨hbusy, -⟩ | ⟨-, o, hphy⟩
    · simp_all
    · exact hbusy
    · simp_all
  | take hu hphy =>
    refine ⟨hu ▸ rfl, ?_⟩
    rcases hphy with hphy | ⟨hbusy, -⟩
    · simp_all
    · exact hbusy
  | _ => simp_all

theorem busMoves_fs (h : BusMoves u s s') (hne : s'.fs ≠ s.fs) :
    u = .set .init ∨ u = .set .deinit ∨ u = .recFinish ∨ ∃ c, u = .cond c := by
  cases h with
  | init hu => exact .inl hu
  | deinit hu => exact .inr (.inl hu)
  | finish hu => exact .inr (.inr (.inl hu))
  | issue hu hphy hfs => exact .inr (.inr (.inr (hfs.resolve_right hne)))
  | _ => exact absurd ‹s'.fs = s.fs› hne

end

/-! ### From the micro-op to the command -/

/-- The commands that send bytes (10_state.md R24's ACK row). -/
def senderCommands : List Instr := [.write, .lSetMode, .lSetMt, .lRead, .uvWrCfg, .uvRdReg, .uvStart, .uvRead]

/-- The twelve commands that use the bus, READ once for each F (40_transport.md R102). -/
def busCommands : List Instr := [.start, .rstart, .stop, .read true, .read false] ++ senderCommands

theorem mem_senderCommands {i : Instr} (h : sendsBytes i = true) : i ∈ senderCommands := by
  cases i <;> simp_all [sendsBytes, senderCommands]

theorem mem_busCommands {i : Instr} (h : needsInit i = true) : i ∈ busCommands := by
  cases i <;> simp_all [needsInit, busCommands, senderCommands]

section
variable {i : Instr} {k : Nat} {u : MuOp}

theorem standsAt_set {e : SetOp} (h : standsAt i k (.set e) = true) :
    (e = .init → i = .init) ∧ (e = .deinit → i = .deinit) ∧ (e = .light → i = .lRead) ∧ (e = .frame → i = .frBuild) ∧
    (e = .cntInc → i = .cntInc) ∧ (∀ hv, e = .laddr hv → i = .lSetAddr hv) ∧ (e = .uvVal none → i = .uvRdReg) ∧
    (∀ dst, e = .uvVal (some dst) → i = .uvRead) := by
  have he := (Bool.and_eq_true_iff.mp h).2
  cases e with
  | uvVal dst => cases dst <;> simp_all
  | _ => simp_all

theorem standsAt_wait (h : standsAt i k u = true) (hu : u.isWait) : i ∈ busCommands := by
  rcases hu with rfl | rfl <;> simp [standsAt] at h <;> exact mem_busCommands (by simp [h])

theorem standsAt_capAck {toRes : Bool} (h : standsAt i k (.capAck toRes) = true) :
    i ∈ senderCommands ∧ (toRes = true → i = .write) := by
  obtain ⟨⟨⟨-, hsends⟩, -⟩, hres⟩ : ((needsInit i = true ∧ sendsBytes i = true) ∧ outsideRecovery i k = true) ∧
      toRes = (i == .write) := by simpa [standsAt] using h
  exact ⟨mem_senderCommands hsends, fun ht => by simpa [ht] using hres⟩

theorem standsAt_capRx_res (h : standsAt i k (.capRx .res) = true) : i = .read true ∨ i = .read false := by
  cases i with
  | read sendAck => cases sendAck <;> simp
  | _ => simp [standsAt, isRead] at h

theorem standsAt_recovers (h : standsAt i k u = true) (hu : (∃ target, u = .brHigh target) ∨ u = .recFinish) :
    i = .recover ∨ i = .uvRead := by
  refine recovers_iff.mp ?_
  rcases hu with ⟨target, rfl⟩ | rfl <;> simp [standsAt] at h <;> simp [h]

theorem standsAt_mayCollide (h : standsAt i k u = true) (hu : u.mayCollide = true) : i ∈ Instr.recover :: busCommands := by
  by_cases htake : u = .sclTake
  · subst htake
    have hrec : recovers i = true := by simp [standsAt] at h; simp [h]
    rcases recovers_iff.mp hrec with rfl | rfl <;> simp [busCommands, senderCommands]
  · have hissue : u.issues = true := by cases u <;> simp_all [MuOp.issues, MuOp.mayCollide]
    exact List.mem_cons_of_mem _ (mem_busCommands (needsInit_of_issues hissue h))

theorem standsAt_initd (h : standsAt i k u = true) (hu : u = .set .init ∨ u = .set .deinit) :
    i ∈ [Instr.init, .deinit] := by
  rcases hu with rfl | rfl
  · obtain ⟨hi, -⟩ := standsAt_set h
    simp [hi rfl]
  · obtain ⟨-, hi, -⟩ := standsAt_set h
    simp [hi rfl]

/-- The micro-ops that move S.fs stand in the commands that emit conditions, recover, or set INIT. -/
theorem standsAt_fs (h : standsAt i k u = true)
    (hu : u = .set .init ∨ u = .set .deinit ∨ u = .recFinish ∨ ∃ c, u = .cond c) :
    i ∈ [Instr.init, .deinit, .start, .rstart, .stop, .recover, .lSetMode, .lSetMt, .lRead, .uvWrCfg, .uvRdReg, .uvStart,
      .uvRead] := by
  rcases hu with hset | hset | rfl | ⟨c, rfl⟩
  · exact List.mem_append_left _ (standsAt_initd h (.inl hset))
  · exact List.mem_append_left _ (standsAt_initd h (.inr hset))
  · rcases standsAt_recovers h (.inr rfl) with rfl | rfl <;> simp
  · have hemits : emitsConds i = true := by simp [standsAt] at h; simp [h]
    cases i <;> simp_all [emitsConds]

end

/-- The commands whose micro-ops change a result register. -/
theorem muOp_result_command {u : MuOp} {r : Run} {s : State} (h : standsAt r.op r.step u = true) :
    ((u.run r s).cnt ≠ s.cnt → r.op ∈ [Instr.cntInc]) ∧ ((u.run r s).light ≠ s.light → r.op ∈ [Instr.lRead]) ∧
    ((u.run r s).uva ≠ s.uva ∨ (u.run r s).uvb ≠ s.uvb ∨ (u.run r s).comp1 ≠ s.comp1 ∨ (u.run r s).comp2 ≠ s.comp2 →
      r.op ∈ [Instr.uvRead]) ∧
    ((u.run r s).res ≠ s.res → r.op ∈ [Instr.write, .read true, .read false, .lRead, .uvRdReg, .uvRead]) ∧
    ((u.run r s).clkHz ≠ s.clkHz → r.op ∈ [Instr.init]) ∧
    ((u.run r s).laddr ≠ s.laddr → r.op ∈ [Instr.lSetAddr true, .lSetAddr false]) := by
  obtain ⟨hcnt, hlight, huv, hres, hclk, hladdr, -⟩ := muOp_result_writer u r s
  refine ⟨fun hne => ?_, fun hne => ?_, fun hne => ?_, fun hne => ?_, fun hne => ?_, fun hne => ?_⟩
  · obtain ⟨-, -, -, -, hop, -⟩ := standsAt_set (hcnt hne ▸ h)
    simp [hop rfl]
  · obtain ⟨-, -, hop, -⟩ := standsAt_set (hlight hne ▸ h)
    simp [hop rfl]
  · obtain ⟨dst, hu⟩ := huv hne
    obtain ⟨-, -, -, -, -, -, -, hop⟩ := standsAt_set (hu ▸ h)
    simp [hop dst rfl]
  · rcases hres hne with rfl | rfl | rfl | ⟨dst, rfl⟩
    · obtain ⟨-, hop⟩ := standsAt_capAck h
      simp [hop rfl]
    · rcases standsAt_capRx_res h with hop | hop <;> simp [hop]
    · obtain ⟨-, -, hop, -⟩ := standsAt_set h
      simp [hop rfl]
    · obtain ⟨-, -, -, -, -, -, hnone, hsome⟩ := standsAt_set h
      cases dst with
      | none => simp [hnone rfl]
      | some dst => simp [hsome dst rfl]
  · obtain ⟨hop, -⟩ := standsAt_set (hclk hne ▸ h)
    simp [hop rfl]
  · obtain ⟨hv, hu⟩ := hladdr hne
    obtain ⟨-, -, -, -, -, hop, -⟩ := standsAt_set (hu ▸ h)
    cases hv <;> simp [hop _ rfl]

/-! ### The statement, agent by agent -/

/-- Settles O48. In a HOST turn the inside of the block stands still; a PHY turn moves the PHY, the latches and the trace; in
a SEQ turn each change names its micro-op, and each micro-op its commands. -/
theorem onlyNamedWritersChangeRegisters : Obligations.OnlyNamedWritersChangeRegisters := by
  intro t s s' hok h ht ran senders bus collided
  cases t with
  | reset => exact absurd rfl ht
  | host =>
    have hin := hostStep_inner h
    simp only [State.inner, Inner.mk.injEq] at hin
    obtain ⟨hphy, -, -, -, hfs, -, -, hinit, hframe, hres, hclk, hladdr, hdiag, -⟩ := hin
    obtain ⟨hvalid, hack, hstuck, hrec, htmo, hcoll⟩ := hostRecords_keeps (hostStep_records h)
    obtain ⟨hovf, hwwb⟩ := hostRecords_sets (hostStep_records h)
    have hbusy : s.busy = true → s'.busy = true := fun hb => by
      unfold State.busy at hb ⊢
      rwa [hostStep_seq_busy h hb]
    refine ⟨fun _ => rfl, fun _ => .inl rfl, fun _ => .inl rfl, fun _ => .inl rfl, ?_⟩
    simpa +contextual [hphy, hfs, hinit, hframe, hres, hclk, hladdr, hdiag, hvalid, hack, hstuck, hrec, htmo, hcoll, hbusy]
      using ⟨hovf, hwwb⟩
  | phy =>
    obtain rfl := Host.Outcome.next.inj h
    have hpois : (phyStep s).phy.poisoned = s.phy.poisoned := by
      rcases phyStep_phy s with hphy | ⟨hclean, -, hphy⟩
      · rw [hphy]
      · rw [hphy, hclean]
    have hbusy : (phyStep s).busy = s.busy := by simp [State.busy]
    simp +contextual [hpois, hbusy]
  | seq =>
    obtain rfl := Host.Outcome.next.inj h
    cases hr : s.seq with
    | idle => simp +contextual [seqStep_idle hr]
    | run r =>
      obtain ⟨u, hu, hstands, hstep⟩ := seqStep_standsAt hok hr
      obtain ⟨hprog, -, hiter⟩ := hok r hr
      have hran {is : List Instr} (hop : r.op ∈ is) : ran is := ⟨rfl, r.op, hop, running_eq_some.mpr ⟨r, hr, rfl⟩⟩
      have hrec := muOp_records u r s
      have hbus := muOp_busMoves u r s
      have hin := muOp_inputs u r s
      obtain ⟨hcnt, hlight, huv, hres, hclk, hladdr⟩ := muOp_result_command (s := s) hstands
      obtain ⟨-, -, -, -, -, -, hframe⟩ := muOp_result_writer u r s
      obtain ⟨hkeepTmo, hkeepColl⟩ := records_keeps hrec
      obtain ⟨herr, hovf, hcode, hwwb⟩ := records_errors hrec
      rw [hstep]
      refine ⟨?_, fun h => .inr (hran (hcnt h)), fun h => .inr (hran (hlight h)), fun h => .inr (hran (huv h)),
        fun h => hran (hres h), fun h => hran (hclk h), fun h => hran (hladdr h), fun h => hran ?_,
        fun h => hran (standsAt_initd hstands (busMoves_initd hbus h)),
        fun h0 h1 => hran (standsAt_initd hstands (busMoves_unpoisoned hbus h0 h1)), fun h => hran ?_, ?_, fun _ _ => rfl,
        fun h => hran (standsAt_fs hstands (busMoves_fs hbus h)), fun h => hran ?_, fun h => ?_, ?_, fun h => ?_, ?_,
        fun h => ?_, fun h0 h1 => ?_, ?_, ?_, ?_⟩
      · simp only [State.inputs, Inputs.mk.injEq] at hin
        simp [hin]
      · have hu : u = .set .frame := h.elim hframe (records_frameValid hrec)
        obtain ⟨-, -, -, hop, -⟩ := standsAt_set (hu ▸ hstands)
        simp [hop rfl]
      · simpa using standsAt_recovers hstands (records_recovery hrec h)
      · simp [busy_of_run hr]
      · obtain ⟨toRes, rfl⟩ := records_ack hrec h
        obtain ⟨hop, -⟩ := standsAt_capAck hstands
        exact hop
      · obtain ⟨⟨toRes, rfl⟩, hack⟩ := records_nack hrec h
        obtain ⟨hop, -⟩ := standsAt_capAck hstands
        exact ⟨hran hop, hack⟩
      · simp +contextual [hkeepTmo]
      · obtain ⟨hwait, hmax, htmo⟩ := records_timeout hrec h
        refine ⟨hran (standsAt_wait hstands hwait), htmo, r, rfl, by omega, ?_⟩
        rcases hwait with rfl | rfl <;> simp [hprog, hu]
      · simp +contextual [hkeepColl]
      · obtain ⟨hmay, hclean, hbusy, hcoll, hphy⟩ := records_collision hrec h
        exact ⟨⟨hran (standsAt_mayCollide hstands hmay), hclean, hbusy⟩, hcoll, hphy⟩
      · obtain ⟨hmay, hbusy⟩ := busMoves_poisoned hbus h0 h1
        exact ⟨hran (standsAt_mayCollide hstands hmay), h0, hbusy⟩
      · simp [herr, hovf, hcode, hwwb]
      · simp +contextual [hovf]
      · simp +contextual [hwwb]

end Sys2Proof.Machine
end

section
/-! PROOFS. The host's window: which register stands at an offset, what a write stores and what a read shows, and the step
that runs a command word. -/

namespace Sys2Proof.Machine

/-! ### Which register stands where -/

/-- A register stands at its own offset only (10_state.md R21). -/
theorem regAt_offset {n : Nat} {r : RegName} (h : regAt n = some r) : RegName.offset r = n := by
  unfold regAt at h
  split at h <;> first | exact Option.some.inj h ▸ rfl | cases h

/-- The registers a host write changes, CMD and STATUS left out (R41, R42). -/
def isReadWrite : RegName → Bool
  | .ctrl => true
  | .arg => true
  | .cnt => true
  | .nodeType => true
  | .uid0 => true
  | .uid1 => true
  | .swver => true
  | .batt => true
  | .temp => true
  | .uva => true
  | .uvb => true
  | .comp1 => true
  | .comp2 => true
  | .light => true
  | _ => false

/-- How many bits of a read/write register are implemented (R21). -/
def usedBits : RegName → Nat
  | .ctrl => 4
  | .nodeType => 16
  | .swver => 8
  | .batt => 16
  | .temp => 16
  | .uva => 16
  | .uvb => 16
  | .comp1 => 16
  | .comp2 => 16
  | .light => 16
  | _ => 32

/-- The reserved offsets of the window (R40). -/
theorem regAt_reserved {n : Nat} (h : (0x5C ≤ n ∧ n < 0x80) ∨ 0xB4 ≤ n) : regAt n = none := by
  unfold regAt
  split <;> first | rfl | omega

/-- The registers at 0x10 to 0x18 and from 0x4C on are read-only. -/
theorem writeReg_readOnly {n : Nat} {r : RegName} (h : regAt n = some r) (hn : (0x10 ≤ n ∧ n < 0x1C) ∨ 0x4C ≤ n)
    (v : Word) (s : State) : r ≠ .cmd ∧ writeReg r v s = s := by
  have hoff := regAt_offset h
  cases r with
  | res => exact ⟨by simp, rfl⟩
  | clkHz => exact ⟨by simp, rfl⟩
  | laddr => exact ⟨by simp, rfl⟩
  | diagTmo => exact ⟨by simp, rfl⟩
  | diagNack => exact ⟨by simp, rfl⟩
  | diagRecov => exact ⟨by simp, rfl⟩
  | diagColl => exact ⟨by simp, rfl⟩
  | frame k => exact ⟨by simp, rfl⟩
  | _ => simp only [RegName.offset] at hoff; omega

/-! ### A 4-byte aligned write while BUSY = 0 -/

section
variable {s : State} {off : Byte} (v : Word)

theorem hostWrite_reserved (hb : s.busy = false) (ha : off.toNat % 4 = 0) (hr : regAt off.toNat = none) :
    hostWrite off .word v s = .next s := by
  simp [hostWrite, hb, aligned, Width.bytes, ha, hr]

theorem hostWrite_reg {r : RegName} (hb : s.busy = false) (ha : off.toNat % 4 = 0) (hr : regAt off.toNat = some r)
    (hcmd : r ≠ .cmd) : hostWrite off .word v s = .next (writeReg r v s) := by
  simp only [hostWrite, hb, aligned, Width.bytes, ha, hr, decide_true, if_true, Bool.false_eq_true, if_false]

theorem hostWrite_cmd (hb : s.busy = false) : hostWrite 0x0C .word v s = writeCmd v s := by
  simp [hostWrite, hb, aligned, Width.bytes, regAt]

end

/-- A HOST turn with a write next makes it. -/
theorem agentStep_host_write (s : State) (off : Byte) (width : Width) (v : Word) (rest : List HostOp) :
    agentStep .host { s with host := .write off width v :: rest } = hostWrite off width v { s with host := rest } := rfl

/-- A HOST turn with a read next makes it. -/
theorem agentStep_host_read (s : State) (off : Byte) (width : Width) (rest : List HostOp) :
    agentStep .host { s with host := .read off width :: rest } =
      .next { s with host := rest, rdata := hostReadValue { s with host := rest } off width } := rfl

/-- BUSY does not depend on the host's pending accesses. -/
theorem busy_with_host {s : State} (l : List HostOp) (hb : s.busy = false) : ({ s with host := l } : State).busy = false :=
  hb

/-- Settles O11: STATUS stands at 0x04. -/
theorem statusWriteClearsNamedBits : Obligations.StatusWriteClearsNamedBits := by
  intro s v rest hb
  rw [agentStep_host_write, hostWrite_reg (r := .status) v (busy_with_host rest hb) rfl rfl (by simp)]
  rfl

/-! ### The step that runs a command word -/

/-- A command word written to CMD while BUSY = 0 runs, after CMD and S.arg are latched. -/
theorem hostWrite_runs {s : State} {w : Word} {i : Instr} (hb : s.busy = false) (hw : decodeWord w = .ok i) :
    hostWrite 0x0C .word w s = exec i { s with cmd := w, argLatch := s.arg } := by
  rw [hostWrite_cmd w hb, writeCmd, hw]
  rfl

theorem step_of_sched {s : State} {t : Turn} {ts : List Turn} (h : s.sched = t :: ts) :
    step s = agentStep t { s with sched := ts } := by
  simp [step, whoseTurn, turnTaken, h]

/-- A step whose turn is the host's, with a launch next, runs the command. -/
theorem step_launch {s : State} {w : Word} {i : Instr} {rest : List HostOp} (ht : whoseTurn s = .host) (hi : s.seq = .idle)
    (hh : s.host = .write 0x0C .word w :: rest) (hw : decodeWord w = .ok i) :
    step s = exec i { turnTaken s with host := rest, cmd := w, argLatch := s.arg } := by
  have hb : ({ turnTaken s with host := rest } : State).busy = false := busy_of_idle (by simp [hi])
  have hturn : hostStep (turnTaken s) = hostWrite 0x0C .word w { turnTaken s with host := rest } := by
    simp [hostStep, hh]
  rw [step, ht, agentStep_host, hturn, hostWrite_runs hb hw, ← turnTaken_arg s]

/-- Settles O6: the turn is the schedule's first, and the placed command word is the one launched. -/
theorem stepRunsDecodedCommand : Obligations.StepRunsDecodedCommand := by
  refine ⟨fun s t ts h => step_of_sched h, fun s w i rest ht hi hh hw => step_launch ht hi hh hw, fun s w i hw => ?_⟩
  have haccess : launchAccess 32 w.toNat = .write 0x0C .word w := by
    simp [launchAccess, Nat.mod_eq_of_lt w.isLt]
  exact step_launch (s := s.withFetchWord 32 w.toNat) (rest := s.host) rfl rfl
    (by rw [← haccess]; rfl) hw

/-! ### What the window shows -/

/-- Where each STATUS field stands (10_state.md R24). -/
def statusBit (s : State) : Nat → Bool
  | 0 => s.busy
  | 1 => s.initd
  | 2 => s.status.ack
  | 3 => s.status.tmo
  | 4 => s.status.coll
  | 5 => s.phy.poisoned
  | 6 => s.status.stuck
  | 7 => s.status.recovered
  | 8 => s.status.err
  | 9 => s.status.errOvf
  | 10 => s.status.wwb
  | 11 => s.status.frameValid
  | 12 => (ErrCode.code s.status.errcode).getLsbD 0
  | 13 => (ErrCode.code s.status.errcode).getLsbD 1
  | 14 => (ErrCode.code s.status.errcode).getLsbD 2
  | 15 => (ErrCode.code s.status.errcode).getLsbD 3
  | 16 => s.fs.isOpen
  | _ => false

/-- The STATUS word, bit by bit. -/
theorem getLsbD_statusWord (s : State) (k : Nat) : (statusWord s).getLsbD k = statusBit s k := by
  by_cases hk : k < 32
  · unfold statusWord
    interval_cases k <;> simp only [BitVec.getLsbD_append] <;> simp [statusBit]
  · rw [BitVec.getLsbD_of_ge _ _ (Nat.not_lt.mp hk)]
    unfold statusBit
    split <;> first | omega | rfl

/-- Where each CTRL field stands (10_state.md R22). -/
def ctrlBit (c : Ctrl) : Nat → Bool
  | 0 => c.mtCompat
  | 1 => c.uvIt.getLsbD 0
  | 2 => c.uvIt.getLsbD 1
  | 3 => c.uvHd
  | _ => false

/-- The CTRL word, bit by bit. -/
theorem getLsbD_ctrlWord (c : Ctrl) (k : Nat) : (ctrlWord c).getLsbD k = ctrlBit c k := by
  by_cases hk : k < 32
  · unfold ctrlWord
    interval_cases k <;> simp only [BitVec.getLsbD_append] <;> simp [ctrlBit]
  · rw [BitVec.getLsbD_of_ge _ _ (Nat.not_lt.mp hk)]
    unfold ctrlBit
    split <;> first | omega | rfl

/-- Settles O10: each register at its offset, STATUS and CTRL bit by bit. -/
theorem statusWordShowsEveryField : Obligations.StatusWordShowsEveryField := by
  intro s w c
  have hw (k : Nat) : w.getLsbD k = statusBit s k := getLsbD_statusWord s k
  have hc (k : Nat) : c.getLsbD k = ctrlBit s.ctrl k := getLsbD_ctrlWord s.ctrl k
  have hcode : w.extractLsb' 12 4 = ErrCode.code s.status.errcode := by
    refine BitVec.eq_of_getLsbD_eq fun i hi => ?_
    rw [BitVec.getLsbD_extractLsb', hw]
    interval_cases i <;> simp [statusBit]
  have htop : w.extractLsb' 17 15 = 0 := by
    refine BitVec.eq_of_getLsbD_eq fun i hi => ?_
    rw [BitVec.getLsbD_extractLsb', hw]
    interval_cases i <;> simp [statusBit]
  have hcTop : c.extractLsb' 4 28 = 0 := by
    refine BitVec.eq_of_getLsbD_eq fun i hi => ?_
    rw [BitVec.getLsbD_extractLsb', hc]
    interval_cases i <;> simp [ctrlBit]
  have hIt : c.extractLsb' 1 2 = s.ctrl.uvIt := by
    refine BitVec.eq_of_getLsbD_eq fun i hi => ?_
    rw [BitVec.getLsbD_extractLsb', hc]
    interval_cases i <;> simp [ctrlBit]
  have hcodes : ErrCode.code s.status.errcode =
      (match s.status.errcode with
        | .none => 0
        | .illegalOpcode => 1
        | .reservedBits => 2
        | .notInit => 3
        | .badArg => 4
        | .badAccess => 5) := by cases s.status.errcode <;> rfl
  have hopen : s.fs.isOpen = decide (s.fs = .opened) := by cases s.fs <;> rfl
  exact ⟨⟨hc 0, hIt, hc 3, hcTop⟩,
    ⟨rfl, rfl, rfl, rfl, rfl, rfl, rfl, rfl, rfl, rfl, rfl, rfl, rfl, rfl, rfl, rfl, rfl, rfl, rfl, rfl, rfl⟩,
    hw 0, hw 1, hw 2, hw 3, hw 4, hw 5, hw 6, hw 7, hw 8, hw 9, hw 10, hw 11, hcode, hcode.trans hcodes,
    (hw 16).trans hopen, htop⟩

/-! ### Reserved and read-only locations -/

/-- A byte of a reserved word reads 0 (R40). -/
theorem windowByte_reserved (s : State) {n : Nat} (h : (0x5C ≤ n ∧ n < 0x80) ∨ 0xB4 ≤ n) : windowByte s n = 0 := by
  simp [windowByte, windowWord, regAt_reserved (n := n - n % 4) (by omega)]

theorem aligned_iff {off : Byte} {width : Width} : aligned off width = true ↔ off.toNat % Width.bytes width = 0 :=
  decide_eq_true_iff

/-- A read of reserved bytes returns 0, at every width. -/
theorem hostReadValue_reserved (s : State) {off : Byte} (width : Width)
    (h : (0x5C ≤ off.toNat ∧ off.toNat < 0x80) ∨ 0xB4 ≤ off.toNat) : hostReadValue s off width = 0 := by
  have hbyte (j : Nat) (hj : off.toNat % 4 + j < 4) : windowByte s (off.toNat + j) = 0 :=
    windowByte_reserved s (by omega)
  have h0 : windowByte s off.toNat = 0 := windowByte_reserved s h
  unfold hostReadValue
  split
  · rename_i ha
    cases width with
    | byte => simp [h0]
    | half =>
      have ha2 : off.toNat % 2 = 0 := aligned_iff.mp ha
      simp [h0, hbyte 1 (by omega)]
    | word =>
      have ha4 : off.toNat % 4 = 0 := aligned_iff.mp ha
      simp [h0, hbyte 1 (by omega), hbyte 2 (by omega), hbyte 3 (by omega)]
  · rfl

/-- A write to STATUS leaves the bits it does not clear, and ERRCODE unless it clears ERR. -/
theorem statusBit_clearStatus (s : State) (v : Word) {k : Nat} (h3 : k ≠ 3) (h4 : k ≠ 4) (h8 : k ≠ 8) (h9 : k ≠ 9)
    (h10 : k ≠ 10) (hcode : 12 ≤ k → k < 16 → v.getLsbD 8 = false) :
    statusBit (clearStatus v s) k = statusBit s k := by
  have hkept (hv : v.getLsbD 8 = false) : (clearStatus v s).status.errcode = s.status.errcode := by
    simp only [clearStatus, hv, Bool.false_eq_true, if_false]
  have hbusy : (clearStatus v s).busy = s.busy := rfl
  unfold statusBit
  split <;> first | contradiction | rfl | rw [hkept (hcode (by omega) (by omega))]

/-- Settles O12: a reserved word reads 0, a write to it or to a read-only register stores nothing, and a STATUS write
leaves every bit that is not write-1-to-clear. -/
theorem reservedAndReadOnlyIgnoreWrites : Obligations.ReservedAndReadOnlyIgnoreWrites := by
  refine ⟨fun s off width rest h => ?_, fun s off v rest hb ha h => ?_, fun s v rest hb => ?_⟩
  · rw [agentStep_host_read, hostReadValue_reserved _ width h]
  · rw [agentStep_host_write]
    cases hr : regAt off.toNat with
    | none => exact hostWrite_reserved v (busy_with_host rest hb) ha hr
    | some r =>
      obtain ⟨hcmd, hkeep⟩ := writeReg_readOnly hr h v { s with host := rest }
      rw [hostWrite_reg v (busy_with_host rest hb) ha hr hcmd, hkeep]
  · refine ⟨clearStatus v { s with host := rest }, ?_, fun k h3 h4 h8 h9 h10 hcode => ?_⟩
    · rw [agentStep_host_write, hostWrite_reg (r := .status) v (busy_with_host rest hb) rfl rfl (by simp)]
      rfl
    · exact (getLsbD_statusWord _ k).trans
        ((statusBit_clearStatus _ v h3 h4 h8 h9 h10 hcode).trans (getLsbD_statusWord _ k).symm)

/-! ### Read/write registers -/

/-- No register shows the host's pending accesses. -/
theorem readReg_with_host (r : RegName) (s : State) (l : List HostOp) : readReg r { s with host := l } = readReg r s := by
  cases r <;> rfl

/-- A write to a read/write register shows in no other register. -/
theorem readReg_writeReg_other {r r' : RegName} (hr : isReadWrite r = true) (hne : r' ≠ r) (v : Word) (s : State) :
    readReg r' (writeReg r v s) = readReg r' s := by
  cases r <;> simp [isReadWrite] at hr <;> cases r' <;> first | rfl | exact absurd rfl hne

/-- CTRL takes the written value's bits [3:0]. -/
theorem ctrlBit_ctrlOfWord (v : Word) (k : Nat) : ctrlBit (ctrlOfWord v) k = (decide (k < 4) && v.getLsbD k) := by
  by_cases hk : k < 4
  · interval_cases k <;> simp [ctrlBit, ctrlOfWord]
  · rw [decide_eq_false hk, Bool.false_and]
    unfold ctrlBit
    split <;> first | omega | rfl

/-- The low `w` bits of a written value, zero-extended. -/
theorem getLsbD_narrow (v : Word) (w : Nat) {k : Nat} (hk : k < 32) :
    ((v.setWidth w).setWidth 32).getLsbD k = (decide (k < w) && v.getLsbD k) := by
  rw [BitVec.getLsbD_setWidth, BitVec.getLsbD_setWidth, decide_eq_true hk, Bool.true_and]

/-- A read/write register shows the used bits of what was written. -/
theorem readReg_writeReg_same {r : RegName} (hr : isReadWrite r = true) (v : Word) (s : State) {k : Nat} (hk : k < 32) :
    (readReg r (writeReg r v s)).getLsbD k = (decide (k < usedBits r) && v.getLsbD k) := by
  cases r with
  | ctrl => exact (getLsbD_ctrlWord _ k).trans (ctrlBit_ctrlOfWord v k)
  | arg | cnt | uid0 | uid1 =>
    show v.getLsbD k = (decide (k < 32) && v.getLsbD k)
    rw [decide_eq_true hk, Bool.true_and]
  | nodeType | batt | temp | uva | uvb | comp1 | comp2 | light => exact getLsbD_narrow v 16 hk
  | swver => exact getLsbD_narrow v 8 hk
  | _ => cases hr

/-- The same in the window, at every offset. -/
theorem windowWord_writeReg_other {r : RegName} {n off : Nat} (hr : isReadWrite r = true) (hn : regAt n = some r)
    (hoff : off ≠ n) (v : Word) (s : State) : windowWord (writeReg r v s) off = windowWord s off := by
  unfold windowWord
  cases hr' : regAt off with
  | none => rfl
  | some r' =>
    refine readReg_writeReg_other hr (fun h => hoff ?_) v s
    rw [← regAt_offset hr', ← regAt_offset hn, h]

/-- Settles O13: each listed offset holds a read/write register of the listed width. -/
theorem readWriteRegistersKeepUsedBits : Obligations.ReadWriteRegistersKeepUsedBits := by
  intro p hp s v rest hb
  obtain ⟨hn, ha, hreg⟩ : (BitVec.ofNat 8 p.1).toNat = p.1 ∧ p.1 % 4 = 0 ∧
      (regAt p.1).any (fun r => isReadWrite r && usedBits r == p.2) = true := by
    revert p
    decide
  obtain ⟨r, hr, hrw⟩ := (Option.any_eq_true _ _).mp hreg
  obtain ⟨hrw, hbits⟩ : isReadWrite r = true ∧ usedBits r = p.2 := by simpa using hrw
  have hcmd : r ≠ .cmd := by rintro rfl; cases hrw
  refine ⟨writeReg r v { s with host := rest }, ?_, fun k hk => ?_, fun off hoff => ?_⟩
  · rw [agentStep_host_write,
      hostWrite_reg v (busy_with_host rest hb) (by rw [hn]; exact ha) (by rw [hn]; exact hr) hcmd]
  · rw [windowWord, hr]
    exact hbits ▸ readReg_writeReg_same hrw v _ hk
  · rw [windowWord_writeReg_other hrw hr hoff]
    unfold windowWord
    cases regAt off with
    | none => rfl
    | some r' => exact readReg_with_host r' s rest

end Sys2Proof.Machine
end

section
/-! PROOFS. The bus operations a command issues: on every schedule of SEQ and PHY, those of its micro-op list, in order. -/

namespace Sys2Proof.Machine

/-! ### What one SEQ step issues -/

theorem issuedKinds_append (tr tr' : List Record) : issuedKinds (tr ++ tr') = issuedKinds tr ++ issuedKinds tr' :=
  List.filterMap_append

/-- The bus operations in the trace of `s'` are those in the trace of `s` and then `k`, if it is one. -/
def Issues (k : Option BusKind) (s s' : State) : Prop := issuedKinds s'.trace = issuedKinds s.trace ++ k.toList

theorem issues_of_trace_eq {s s' : State} (h : s'.trace = s.trace) : Issues none s s' := by simp [Issues, h]

/-- One more record issues the operation it shows. -/
theorem issues_of_record {k : Option BusKind} {s s' : State} {x : Record} (h : s'.trace = s.trace ++ [x])
    (hx : x.kind = k) : Issues k s s' := by
  rw [Issues, h, issuedKinds_append]
  cases k <;> simp [issuedKinds, hx]

theorem issues_trans_none {k : Option BusKind} {s s1 s' : State} (h : Issues k s s1) (h' : Issues none s1 s') :
    Issues k s s' := by
  rw [Issues, h', h, Option.toList_none, List.append_nil]

/-- A transfer is issued whatever the PHY does with it: logged, or named in a collision (40_transport.md R107, R108). -/
theorem issues_phyIssue (o : PhyOp) (s : State) : Issues (some o.kind) s (phyIssue o s) := by
  rcases phyIssue_cases o s with ⟨-, h⟩ | ⟨-, -, h⟩ | ⟨-, h⟩ <;> rw [h] <;> exact issues_of_record rfl rfl

/-- So is a condition. -/
theorem issues_phyCond (c : Cond) (s : State) : Issues (some c.kind) s (phyCond c s) := by
  unfold phyCond
  rcases emitCond_cases c s with ⟨-, h⟩ | ⟨-, -, h⟩ <;> rw [h] <;> exact issues_of_record rfl rfl

/-- SCL_TAKE issues nothing, in a collision or not. -/
theorem issues_takeScl (s : State) : Issues none s (takeScl s) := by
  rcases takeScl_cases s with ⟨-, h⟩ | ⟨-, -, h⟩ <;> rw [h]
  · exact issues_of_record rfl rfl
  · exact issues_trans_none (s1 := collide .recover s) (issues_of_record rfl rfl) (issues_of_record rfl rfl)

theorem issues_abandonOpen (s : State) : Issues none s (abandonOpen s) := by
  unfold abandonOpen
  split
  · exact issues_of_record rfl rfl
  · exact issues_of_trace_eq rfl

theorem issues_finishRecovery (v : Bool) (s : State) : Issues none s (finishRecovery v s) := by
  unfold finishRecovery
  split
  · exact issues_of_record rfl rfl
  · exact issues_of_trace_eq rfl

theorem issues_set (e : SetOp) (r : Run) (s : State) : Issues none s (e.apply r s) := by
  cases e with
  | init => exact issues_abandonOpen s
  | deinit => exact issues_abandonOpen s
  | _ => exact issues_of_trace_eq (by simp [SetOp.apply])

/-- A SEQ step issues its micro-op's bus operation, and no other, in every state. -/
theorem muOp_issues (u : MuOp) (r : Run) (s : State) : Issues u.kind s (u.run r s) := by
  have hadv {k : Option BusKind} {s1 : State} (r1 : Run) (h : Issues k s s1) : Issues k s (advance r1 s1) :=
    issues_trans_none h (issues_of_trace_eq (by simp [advance]))
  cases u with
  | cond c => exact hadv r (issues_phyCond c s)
  | txgo b => exact hadv r (issues_phyIssue (.tx (b.eval r s)) s)
  | rxgo => exact hadv r (issues_phyIssue .rx s)
  | ackgo a => exact hadv r (issues_phyIssue (.ackdrv a) s)
  | set e => exact hadv _ (issues_set e r s)
  | sdaSample => exact hadv _ (issues_of_record rfl rfl)
  | sclTake => exact hadv r (issues_takeScl s)
  | sclDrive level => exact hadv r (issues_of_record rfl rfl)
  | sclRestore => exact hadv r (issues_of_record rfl rfl)
  | recFinish => exact hadv r (issues_finishRecovery _ s)
  | brHigh target =>
    rcases brHigh_cases target r s with ⟨-, h⟩ | ⟨-, h⟩ <;> exact issues_of_trace_eq (by simp [h, advance])
  | _ => exact issues_of_trace_eq (by simp [MuOp.run, advance])

/-- A PHY turn logs completions only, which issue nothing. -/
theorem issues_phyStep (s : State) : Issues none s (phyStep s) := by
  rcases phyStep_cases s with ⟨-, h⟩ | ⟨b, -, h⟩ | ⟨-, h⟩ | ⟨a, -, h⟩ <;> rw [h]
  · exact issues_of_trace_eq rfl
  all_goals exact issues_of_record rfl rfl

/-! ### What a run has still to issue -/

/-- The bus operations of the micro-ops a run has not come to the end of. -/
def State.kindsLeft (s : State) : List BusKind :=
  match s.seq with
  | .idle => []
  | .run r => programKinds (r.prog.drop r.step)

theorem kindsLeft_idle {s : State} (h : s.seq = .idle) : s.kindsLeft = [] := by simp [State.kindsLeft, h]

theorem kindsLeft_run {s : State} {r : Run} (h : s.seq = .run r) : s.kindsLeft = programKinds (r.prog.drop r.step) := by
  simp [State.kindsLeft, h]

theorem kindsLeft_congr {s s' : State} (h : s'.seq = s.seq) : s'.kindsLeft = s.kindsLeft := by
  simp only [State.kindsLeft, h]

/-- From a micro-op on, a program issues the micro-op's operation and then the rest's. -/
theorem programKinds_drop {prog : List MuOp} {k : Nat} {u : MuOp} (h : prog[k]? = some u) :
    programKinds (prog.drop k) = u.kind.toList ++ programKinds (prog.drop (k + 1)) := by
  obtain ⟨hk, hu⟩ := List.getElem?_eq_some_iff.mp h
  rw [List.drop_eq_getElem_cons hk, hu, programKinds]
  cases hkind : u.kind <;> simp [programKinds, hkind]

/-- The micro-ops BR_HIGH skips are the rest of the recovery segment, which issues no bus operation (40_transport.md
R119). -/
theorem programKinds_skip_recovery {i : Instr} (h : recovers i = true) :
    programKinds ((program i).drop 2) = programKinds ((program i).drop recoveryLength) := by
  rcases recovers_iff.mp h with rfl | rfl <;> rfl

/-- Where a SEQ step of a command's own program goes, the same operations are left as at the next micro-op. -/
theorem programKinds_next {i : Instr} {k n : Nat} {u : MuOp} (h : standsAt i k u = true)
    (hn : n = k + 1 ∨ u = .brHigh n) : programKinds ((program i).drop n) = programKinds ((program i).drop (k + 1)) := by
  rcases hn with rfl | rfl
  · rfl
  · obtain ⟨⟨hrec, rfl⟩, rfl⟩ : (recovers i = true ∧ k = 1) ∧ n = recoveryLength := by simpa [standsAt] using h
    exact (programKinds_skip_recovery hrec).symm

/-- A SEQ step takes its micro-op's operation off those left. -/
theorem kindsLeft_muOp {s s' : State} {r : Run} {u : MuOp} (hprog : r.prog = program r.op) (hr : s.seq = .run r)
    (hu : (program r.op)[r.step]? = some u) (hstands : standsAt r.op r.step u = true) (h : SeqMoves u r s') :
    s.kindsLeft = u.kind.toList ++ s'.kindsLeft := by
  rw [kindsLeft_run hr, hprog]
  cases h with
  | finish n hn hend hseq =>
    rw [kindsLeft_idle hseq, programKinds_drop hu, ← programKinds_next hstands hn, ← hprog, List.drop_of_length_le hend]
    rfl
  | poll hwait hiter hseq =>
    have hnone : u.kind = none := by rcases hwait with rfl | rfl <;> rfl
    rw [kindsLeft_run hseq, hprog, hnone]
    rfl
  | goto r' hop hprog' hiter hn hlt hseq =>
    rw [kindsLeft_run hseq, programKinds_drop hu, hprog', hprog, programKinds_next hstands hn]

/-! ### Issued and left, together -/

/-- S.seq is inside its command's program, and the operations issued with those left are `ks`. -/
def IssuesInAll (ks : List BusKind) (s : State) : Prop :=
  SequencerOk s ∧ issuedKinds s.trace ++ s.kindsLeft = ks

theorem seqStep_issuesInAll {ks : List BusKind} {s : State} (h : IssuesInAll ks s) : IssuesInAll ks (seqStep s) := by
  obtain ⟨hok, hks⟩ := h
  refine ⟨seqStep_sequencerOk hok, ?_⟩
  cases hr : s.seq with
  | idle => rwa [seqStep_idle hr]
  | run r =>
    obtain ⟨u, hu, hstands, hstep⟩ := seqStep_standsAt hok hr
    obtain ⟨hprog, -, -⟩ := hok r hr
    have hissues : issuedKinds (u.run r s).trace = issuedKinds s.trace ++ u.kind.toList := muOp_issues u r s
    rw [hstep, hissues, List.append_assoc, ← kindsLeft_muOp hprog hr hu hstands (muOp_seqMoves u r s), hks]

theorem phyStep_issuesInAll {ks : List BusKind} {s : State} (h : IssuesInAll ks s) : IssuesInAll ks (phyStep s) := by
  obtain ⟨hok, hks⟩ := h
  have hissues : issuedKinds (phyStep s).trace = issuedKinds s.trace ++ (none : Option BusKind).toList := issues_phyStep s
  refine ⟨phyStep_sequencerOk hok, ?_⟩
  have hleft : (phyStep s).kindsLeft = s.kindsLeft := kindsLeft_congr (by rw [phyStep_eq])
  rw [hissues, hleft, Option.toList_none, List.append_nil, hks]

/-- What SEQ and PHY turns keep, every schedule of them keeps. -/
theorem runTurns_keeps {P : State → Prop} (hseq : ∀ s, P s → P (seqStep s)) (hphy : ∀ s, P s → P (phyStep s))
    {ts : List Turn} {s u : State} (hts : ∀ x ∈ ts, x = .seq ∨ x = .phy) (h : runTurns ts s = .next u) (hs : P s) :
    P u := by
  induction ts generalizing s with
  | nil => exact Host.Outcome.next.inj h ▸ hs
  | cons t ts ih =>
    have hrest := fun x hx => hts x (List.mem_cons_of_mem t hx)
    rcases hts t List.mem_cons_self with rfl | rfl
    · exact ih hrest h (hseq s hs)
    · exact ih hrest h (hphy s hs)

/-- A command that runs after its launch is at its program's first micro-op, and its launch changed nothing else. -/
theorem exec_busy {i : Instr} {s t : State} (hidle : s.seq = .idle) (h : exec i s = .next t) (hb : t.busy = true) :
    program i ≠ [] ∧ t = s.at (Run.fresh i (program i)) := by
  rcases exec_cases h with ⟨c, -, rfl⟩ | ⟨-, rfl⟩
  · rw [busy_of_idle (by rw [raiseCmdError_seq, hidle])] at hb
    cases hb
  · rcases launch_cases i (program i) s with ⟨-, hl⟩ | ⟨hne, hl⟩
    · rw [hl, busy_of_idle hidle] at hb
      cases hb
    · exact ⟨hne, hl⟩

/-- Settles O54: each SEQ step moves its micro-op's operation from those left to those issued, and a PHY turn moves
none. -/
theorem busOperationsFollowTheProgram : Obligations.BusOperationsFollowTheProgram := by
  intro i s t u ts hidle hexec hb hts hrun hend
  obtain ⟨hne, rfl⟩ := exec_busy hidle hexec hb
  have hstart : IssuesInAll (issuedKinds s.trace ++ programKinds (program i)) (s.at (Run.fresh i (program i))) :=
    ⟨sequencerOk_of_run rfl rfl (List.length_pos_iff.mpr hne) retryMax_pos, rfl⟩
  obtain ⟨-, hall⟩ := runTurns_keeps (P := IssuesInAll _) (fun _ => seqStep_issuesInAll)
    (fun _ => phyStep_issuesInAll) hts hrun hstart
  rwa [kindsLeft_idle hend, List.append_nil] at hall

end Sys2Proof.Machine
end

section
/-! PROOFS. The widths and the byte order of the host's accesses (20_memory.md R60, R62, R65), and FRAME in the window
(R64). -/

namespace Sys2Proof.Machine

/-! ### Four bytes as a word -/

/-- The word of bytes `b 0` to `b 3`, the lowest in bits [7:0] (R60). -/
def wordOfBytes (b : Nat → Byte) : Word := b 3 ++ b 2 ++ b 1 ++ b 0

/-- Above its lowest byte, a word holds the bytes of the rest, one place lower. -/
theorem extractLsb'_append_byte {w : Nat} (x : BitVec w) (y : Byte) (k : Nat) :
    (x ++ y).extractLsb' (8 * (k + 1)) 8 = x.extractLsb' (8 * k) 8 :=
  BitVec.extractLsb'_append_eq_of_le (by omega)

/-- Byte `j` of a word stands in its bits [8j+7:8j]. -/
theorem extractLsb'_wordOfBytes (b : Nat → Byte) {j : Nat} (hj : j < 4) :
    (wordOfBytes b).extractLsb' (8 * j) 8 = b j := by
  have h0 {w : Nat} (x : BitVec w) (y : Byte) : (x ++ y).extractLsb' (8 * 0) 8 = y := BitVec.extractLsb'_append_eq_right
  unfold wordOfBytes
  interval_cases j
  · rw [h0]
  · rw [extractLsb'_append_byte _ _ 0, h0]
  · rw [extractLsb'_append_byte _ _ 1, extractLsb'_append_byte _ _ 0, h0]
  · rw [extractLsb'_append_byte _ _ 2, extractLsb'_append_byte _ _ 1, extractLsb'_append_byte _ _ 0]
    exact BitVec.extractLsb'_eq_self

/-- Two bytes zero-extended to a word. -/
theorem setWidth_halfword (x y : Byte) : (x ++ y).setWidth 32 = 0#16 ++ x ++ y := by
  rw [BitVec.append_assoc, BitVec.setWidth_eq_append (by decide)]

/-! ### Writes the port turns away -/

/-- A write while BUSY = 1 is dropped, at every offset and width (R62). -/
theorem hostWrite_busy {s : State} (off : Byte) (width : Width) (v : Word) (hb : s.busy = true) :
    hostWrite off width v s = .next { s with status := { s.status with wwb := true } } := by
  simp [hostWrite, hb]

/-- A write while BUSY = 0 that is not a word at an aligned offset only records BAD_ACCESS (R65). -/
theorem hostWrite_badAccess {s : State} {off : Byte} {width : Width} (v : Word) (hb : s.busy = false)
    (h : width ≠ .word ∨ off.toNat % 4 ≠ 0) : hostWrite off width v s = .next (raiseCmdError .badAccess s) := by
  cases width with
  | byte => simp [hostWrite, hb]
  | half => simp [hostWrite, hb]
  | word =>
    have ha : aligned off .word = false := decide_eq_false (h.resolve_left (fun hne => hne rfl))
    simp [hostWrite, hb, ha]

/-! ### Reads -/

/-- A read does not see the host's pending accesses. -/
theorem hostReadValue_with_host (s : State) (l : List HostOp) (off : Byte) (width : Width) :
    hostReadValue { s with host := l } off width = hostReadValue s off width := by
  have hword (n : Nat) : windowWord { s with host := l } n = windowWord s n := by
    unfold windowWord
    cases regAt n with
    | none => rfl
    | some r => exact readReg_with_host r s l
  simp only [hostReadValue, windowByte, hword]

/-- Byte `j` of what an aligned read returns: the addressed byte, or 0 above the width. -/
def readLane (s : State) (off : Nat) (width : Width) (j : Nat) : Byte :=
  if j < Width.bytes width then windowByte s (off + j) else 0

/-- An aligned read returns the addressed bytes, zero-extended (R65). -/
theorem hostReadValue_aligned (s : State) {off : Byte} {width : Width} (h : off.toNat % Width.bytes width = 0) :
    hostReadValue s off width = wordOfBytes (readLane s off.toNat width) := by
  have ha : aligned off width = true := aligned_iff.mpr h
  unfold hostReadValue
  rw [if_pos ha]
  cases width with
  | byte => simp [wordOfBytes, readLane, Width.bytes, BitVec.setWidth_eq_append]
  | half => simp [wordOfBytes, readLane, Width.bytes, setWidth_halfword]
  | word => simp [wordOfBytes, readLane, Width.bytes]

theorem hostReadValue_misaligned (s : State) {off : Byte} {width : Width} (h : off.toNat % Width.bytes width ≠ 0) :
    hostReadValue s off width = 0 := by
  unfold hostReadValue
  rw [if_neg (fun ha => h (aligned_iff.mp ha))]

/-- The byte at `4k + j` stands in bits [8j+7:8j] of the word at `4k` (R60). -/
theorem windowByte_eq (s : State) (k : Nat) {j : Nat} (hj : j < 4) :
    windowByte s (4 * k + j) = (windowWord s (4 * k)).extractLsb' (8 * j) 8 := by
  have hmod : (4 * k + j) % 4 = j := by omega
  rw [windowByte, hmod, Nat.add_sub_cancel]

/-- Settles O8: the priority of BUSY over every other check of a write, and a read's frame. -/
theorem hostWriteWhileBusyIsDropped : Obligations.HostWriteWhileBusyIsDropped := by
  intro s off width v rest
  refine ⟨fun hb => ?_, ?_⟩
  · rw [agentStep_host_write, hostWrite_busy off width v (s := { s with host := rest }) hb]
  · rw [agentStep_host_read, hostReadValue_with_host]

/-- Settles O9: the port's check of a write, and a read byte by byte. -/
theorem accessWidthsAndByteOrder : Obligations.AccessWidthsAndByteOrder := by
  intro s
  refine ⟨fun hb off width v rest h => ?_, fun off width h => hostReadValue_misaligned s h,
    fun off width h => ⟨fun j hj => ?_, fun j hlo hhi => ?_⟩, fun k j _ hj => windowByte_eq s k hj⟩
  · rw [agentStep_host_write, hostWrite_badAccess v (busy_with_host rest hb) h]
  · have hj4 : j < 4 := Nat.lt_of_lt_of_le hj (by cases width <;> decide)
    rw [hostReadValue_aligned s h, extractLsb'_wordOfBytes _ hj4, readLane, if_pos hj]
  · rw [hostReadValue_aligned s h, extractLsb'_wordOfBytes _ hhi, readLane, if_neg (Nat.not_lt.mpr hlo)]

/-! ### FRAME in the window -/

/-- The thirteen words of FRAME stand from 0x80 on. -/
theorem regAt_frame {m : Nat} (hm : m < 13) : regAt (0x80 + 4 * m) = some (.frame m) := by
  interval_cases m <;> rfl

/-- A word of FRAME in the window holds four frame bytes, the lowest in bits [7:0] (R64). -/
theorem windowWord_frame (s : State) {m : Nat} (hm : m < 13) :
    windowWord s (0x80 + 4 * m) = wordOfBytes (fun j => frameByte s (4 * m + j)) := by
  rw [windowWord, regAt_frame hm]
  rfl

/-- Each frame byte stands at its own offset in the window. -/
theorem windowByte_frame (s : State) {i : Nat} (hi : i < 52) : windowByte s (0x80 + i) = frameByte s i := by
  have hoff : 0x80 + i = 4 * (32 + i / 4) + i % 4 := by omega
  have hword : 4 * (32 + i / 4) = 0x80 + 4 * (i / 4) := by omega
  have hj : i % 4 < 4 := Nat.mod_lt i (by decide)
  rw [hoff, windowByte_eq s _ hj, hword, windowWord_frame s (by omega), extractLsb'_wordOfBytes _ hj, Nat.div_add_mod]

/-- An address that is not listed reads as the unlisted value. -/
theorem memory_read_unlisted {m : Memory} {a : Nat} (h : ∀ c ∈ m, c.1 ≠ a) : m.read a = Memory.unlisted := by
  induction m with
  | nil => rfl
  | cons c m ih => rw [memory_read_cons, if_neg (h c List.mem_cons_self), ih (fun d hd => h d (List.mem_cons_of_mem c hd))]

/-- FRAME holds 50 bytes; every later position reads 0 (R39, R64). -/
theorem frameByte_beyond {s : State} (h : FrameOk s) {i : Nat} (hi : 50 ≤ i) : frameByte s i = 0 := by
  obtain ⟨-, hin, -, -⟩ := h
  refine memory_read_unlisted fun c hc he => ?_
  obtain ⟨-, hlt⟩ := hin c hc
  have hlen : Config.FRAME_LEN = 50 := rfl
  omega

/-- Settles O14: a frame word is its four bytes, and FRAME lists no byte past the fiftieth. -/
theorem frameWindowIsLittleEndian : Obligations.FrameWindowIsLittleEndian := by
  intro s hs
  exact ⟨fun m hm => windowWord_frame s hm, frameByte_beyond hs (by decide), frameByte_beyond hs (by decide),
    fun i hi => windowByte_frame s (by omega)⟩

end Sys2Proof.Machine
end

section
/-! PROOFS. L.READ under the eager schedule (41_light.md R149, R150). -/

namespace Sys2Proof.Machine

/-- Advancing forgets where in the program the run stood. -/
theorem advanceTo_goto (n k : Nat) (r : Run) (s : State) : advanceTo n (r.goto k) s = advanceTo n r s := rfl

/-- The eager effect of a light read transaction, but for the temporaries. -/
def lightRead (a : Bool) (b1 b2 : Byte) (acks : List Bool) (bytes : List Byte) (b : State) : State :=
  { b with
    ci := true
    ackstat := a
    rxbuf := b2
    fs := .idle
    status.ack := a
    diag.nack := b.diag.nack + nackCount [a]
    env := { b.env with acks := acks, bytes := bytes }
    trace := b.trace ++ [emitted b.fs .start] ++ wrote (b.laddr + 1) a ++ received b1 true ++ received b2 false ++
      [plain (.cond .stop)] }

/-- The eager effect of `T_LREAD`: the two bytes stand in the temporaries, the first received in `t0`. -/
theorem eager_lread {b : State} {r : Run} {n : Nat} {a : Bool} {b1 b2 : Byte} {acks : List Bool} {bytes : List Byte}
    (hq : b.phy = ⟨none, false⟩) (he : b.env.acks = a :: acks) (hb : b.env.bytes = b1 :: b2 :: bytes) (hn : r.step = n)
    (h : Segment r.prog n tLread) :
    runTurns (eager 18) (b.at r) =
      .next (advanceTo (n + 18) { r with t0 := b1, t1 := b2 } (lightRead a b1 b2 acks bytes b)) := by
  have hl : n + 18 ≤ r.prog.length := segment_le h (by simp [tLread, tStart])
  have u (k : Nat) (u : MuOp) (hk : tLread[k]? = some u) : r.prog[n + k]? = some u := segment_at h hk
  refine eager_seq (m := 2) (n := 16) (eager_cond (c := .start) hq hn (u 0 _ rfl) (u 1 _ rfl)) (by omega) ?_
  refine eager_seq (m := 4) (n := 12) (eager_write (n := n + 2) (src := .succ .laddr) (x := b.laddr + 1) (toRes := false)
    hq rfl (u 2 _ rfl) (u 3 _ rfl) (u 4 _ rfl) (u 5 _ rfl) rfl) (by simp only; omega) ?_
  refine eager_seq (m := 5) (n := 7) (eager_read (n := n + 6) (sa := true) (dst := .t0) hq rfl
    (u 6 _ rfl) (u 7 _ rfl) (u 8 _ rfl) (u 9 _ rfl) (u 10 _ rfl)) (by simp only [RxDst.temps]; omega) ?_
  refine eager_seq (m := 5) (n := 2) (eager_read (n := n + 11) (sa := false) (dst := .t1) hq rfl
    (u 11 _ rfl) (u 12 _ rfl) (u 13 _ rfl) (u 14 _ rfl) (u 15 _ rfl)) (by simp only [RxDst.temps]; omega) ?_
  refine Eq.trans (eager_cond (n := n + 16) (c := .stop) hq rfl (u 16 _ rfl) (u 17 _ rfl)) ?_
  rw [← advanceTo_goto (n + 18) (n + 16) { r with t0 := b1, t1 := b2 }]
  simp [lightRead, wroteByte, readByte, conditioned, Env.takeAck, Env.takeByte, he, hb, Cond.framing, wrote,
      received, emitted, issued, plain, Cond.unframed, Cond.reopen, nack_one, RxDst.result, RxDst.temps]

/-- Settles O29: T_LREAD, then the SET that puts the two bytes together. -/
theorem lReadDecodesBigEndian : Obligations.LReadDecodesBigEndian := by
  intro s a b1 b2 acks bytes hquiet hinit he hb
  obtain ⟨hidle, hphy⟩ := hquiet
  refine ⟨_, exec_run .lRead s (by simp) (by simp) (fun _ => hinit), rfl, ?_⟩
  refine eager_chain (m := 18) (n := 1) (eager_lread hphy he hb rfl rfl) rfl ?_
  refine eager_finish (eager_set (n := 18) (e := .light) rfl rfl ?_) rfl ?_
  · exact hphy
  · simp [lightRead, lightEffect, SetOp.apply, lightValue, hidle]

end Sys2Proof.Machine
end

section
/-! PROOFS. The command word (30_encoding.md R80 to R85, R92, R94): what the decoder accepts and rejects, the opcode table,
and the assembler's lines read back. -/

namespace Sys2Proof.Machine

/-! ### The fields of a command word (R80) -/

/-- A word is its three fields, RSV highest. -/
theorem append_fields (w : Word) : rsvField w ++ BitVec.ofBool (flagField w) ++ opcField w = w := by
  refine BitVec.eq_of_getLsbD_eq fun k hk => ?_
  simp only [BitVec.getLsbD_append, rsvField, flagField, opcField, BitVec.getLsbD_extractLsb', BitVec.getLsbD_ofBool]
  by_cases hopc : k < 8
  · simp [hopc]
  · by_cases hflag : k = 8
    · simp [hflag]
    · simp [hopc, show ¬ k - 8 < 1 by omega, show k - 8 - 1 < 23 by omega, show 9 + (k - 8 - 1) = k by omega]

section
variable (i : Instr)

@[simp] theorem opcField_encode : opcField (encode i) = i.opcode := BitVec.extractLsb'_append_eq_right

@[simp] theorem flagField_encode : flagField (encode i) = i.flag := by
  rw [flagField, encode, BitVec.getLsbD_append, BitVec.getLsbD_append]
  simp

@[simp] theorem rsvField_encode : rsvField (encode i) = 0#23 := by
  exact (BitVec.extractLsb'_append_eq_of_le (by decide)).trans BitVec.extractLsb'_append_eq_left

end

/-- A word is a command's encoding exactly where its three fields are the command's. -/
theorem eq_encode_iff {w : Word} {i : Instr} :
    w = encode i ↔ rsvField w = 0#23 ∧ flagField w = i.flag ∧ opcField w = i.opcode := by
  constructor
  · rintro rfl
    simp
  · rintro ⟨hrsv, hflag, hopc⟩
    rw [← append_fields w, hrsv, hflag, hopc, encode]

/-! ### The opcode map (R82) -/

/-- The row of an opcode makes commands of that opcode, with the flag it is given wherever the row may take it. -/
theorem opcodeMap_make {n : Nat} {row : OpcodeRow} (h : opcodeMap n = some row) {f : Bool}
    (hf : f = true → row.hasF = true) : (row.make f).opcode.toNat = n ∧ (row.make f).flag = f := by
  unfold opcodeMap at h
  split at h <;> simp only [Option.some.injEq, reduceCtorEq] at h <;> subst h
  all_goals
    cases f with
    | false => exact ⟨rfl, rfl⟩
    | true => simp_all [Instr.opcode, Instr.flag]

/-- Every command is made by its opcode's row, which takes the command's flag. -/
theorem opcodeMap_opcode (i : Instr) :
    ∃ row, opcodeMap i.opcode.toNat = some row ∧ (i.flag = true → row.hasF = true) ∧ row.make i.flag = i := by
  cases i <;> exact ⟨_, rfl, by simp [Instr.flag], rfl⟩

/-- The unassigned opcodes of R85. -/
theorem opcodeMap_eq_none_iff {n : Nat} :
    opcodeMap n = none ↔ (0x09 ≤ n ∧ n ≤ 0x0F) ∨ (0x14 ≤ n ∧ n ≤ 0x1F) ∨ (0x24 ≤ n ∧ n ≤ 0x2F) ∨ 0x32 ≤ n := by
  unfold opcodeMap
  split
  all_goals
    simp only [reduceCtorEq, true_iff, false_iff, imp_false] at *
    omega

/-- READ and L.SETADDR alone have the F flag (R84). -/
theorem opcodeMap_hasF {n : Nat} {row : OpcodeRow} (h : opcodeMap n = some row) :
    row.hasF = true ↔ n = 0x07 ∨ n = 0x10 := by
  unfold opcodeMap at h
  split at h <;> simp only [Option.some.injEq, reduceCtorEq] at h <;> subst h <;> simp

/-! ### The decoder (R81) -/

section
variable {w : Word} {row : OpcodeRow}

theorem decodeWord_illegal (h : opcodeMap (opcField w).toNat = none) : decodeWord w = .error .illegalOpcode := by
  simp [decodeWord, h]

theorem decodeWord_reserved (h : opcodeMap (opcField w).toNat = some row)
    (hbad : rsvField w ≠ 0#23 ∨ (flagField w = true ∧ row.hasF = false)) : decodeWord w = .error .reservedBits := by
  simpa [decodeWord, h, Classical.or_iff_not_imp_left] using hbad

theorem decodeWord_accepted (h : opcodeMap (opcField w).toNat = some row) (hrsv : rsvField w = 0#23)
    (hflag : flagField w = true → row.hasF = true) : decodeWord w = .ok (row.make (flagField w)) := by
  simpa [decodeWord, h, hrsv] using hflag

/-- The decoder accepts a command's own word. -/
theorem decodeWord_encode (i : Instr) : decodeWord (encode i) = .ok i := by
  obtain ⟨row, hrow, hflag, hmake⟩ := opcodeMap_opcode i
  rw [decodeWord_accepted (by rwa [opcField_encode]) (rsvField_encode i) (by rwa [flagField_encode]), flagField_encode, hmake]

/-- The decoder accepts nothing but commands' own words. -/
theorem eq_encode_of_decodeWord {i : Instr} (h : decodeWord w = .ok i) : w = encode i := by
  cases hrow : opcodeMap (opcField w).toNat with
  | none => simp [decodeWord_illegal hrow] at h
  | some row =>
    by_cases hbad : rsvField w ≠ 0#23 ∨ (flagField w = true ∧ row.hasF = false)
    · simp [decodeWord_reserved hrow hbad] at h
    · obtain ⟨hrsv, hflag⟩ : rsvField w = 0#23 ∧ (flagField w = true → row.hasF = true) := by simpa using hbad
      obtain rfl : row.make (flagField w) = i := Except.ok.inj ((decodeWord_accepted hrow hrsv hflag).symm.trans h)
      obtain ⟨hopc, hf⟩ := opcodeMap_make hrow hflag
      exact eq_encode_iff.mpr ⟨hrsv, hf.symm, (BitVec.eq_of_toNat_eq hopc).symm⟩

end

/-- Settles O1: the encoding is accepted, and an accepted word has the fields of the command it decodes to. -/
theorem decodeAcceptsExactlyEncodings : Obligations.DecodeAcceptsExactlyEncodings := fun _ i =>
  ⟨eq_encode_of_decodeWord, fun h => h ▸ decodeWord_encode i⟩

/-! ### A command line read back (R83, R92) -/

/-- Byte `k` of a 32-bit word given as a number. -/
theorem toNat_operandByte (n : Nat) {k : Nat} (hk : k < 4) :
    ((BitVec.ofNat 32 n).extractLsb' (8 * k) 8).toNat = n / 2 ^ (8 * k) % 2 ^ 8 := by
  rw [BitVec.extractLsb'_toNat, BitVec.toNat_ofNat, Nat.shiftRight_eq_div_pow]
  interval_cases k <;> omega

theorem fits_iff {bits n : Nat} : fits bits n = true ↔ n < 2 ^ bits := by simp [fits]

/-- An operand of one byte, alone in the argword. -/
theorem toNat_onlyByte {v : Nat} (hv : fits 8 v = true) : ((BitVec.ofNat 32 v).extractLsb' (8 * 0) 8).toNat = v := by
  rw [fits_iff] at hv
  rw [toNat_operandByte v (by decide)]
  omega

/-- Settles O3: the word gives the command back, and each byte of the argword its operand. -/
theorem assembledCommandReadsBack : Obligations.AssembledCommandReadsBack := by
  intro c a hwf harg
  unfold disassemble Command.word
  rw [decodeWord_encode]
  cases c with
  | init hz =>
    obtain rfl := harg _ rfl
    have hhz : hz < 2 ^ 32 := fits_iff.mp hwf
    simpa [Command.instr] using hhz
  | write v | lSetMode v | lSetMt v =>
    obtain rfl := harg _ rfl
    simp only [Command.instr, toNat_onlyByte hwf]
  | uvWrCfg d r lo hi =>
    obtain rfl := harg _ rfl
    simp only [Command.wellFormed, Bool.and_eq_true, fits_iff] at hwf
    obtain ⟨⟨⟨hd, hr⟩, hlo⟩, hhi⟩ := hwf
    simp only [Command.instr, toNat_operandByte, Nat.reduceLT, Option.some.injEq, Command.uvWrCfg.injEq]
    omega
  | uvRdReg d r =>
    obtain rfl := harg _ rfl
    simp only [Command.wellFormed, Bool.and_eq_true, fits_iff] at hwf
    obtain ⟨hd, hr⟩ := hwf
    simp only [Command.instr, toNat_operandByte, Nat.reduceLT, Option.some.injEq, Command.uvRdReg.injEq]
    omega
  | _ => rfl

/-! ### The opcode table (R94) -/

/-- Each command's word hits one row, that of its mnemonic: the per-command laws together. -/
theorem rowMatches (i : Instr) : Laws.RowMatches.Statement i := by
  cases i with
  | nop => exact Laws.RowMatches.nop
  | init => exact Laws.RowMatches.init
  | deinit => exact Laws.RowMatches.deinit
  | start => exact Laws.RowMatches.start
  | rstart => exact Laws.RowMatches.rstart
  | stop => exact Laws.RowMatches.stop
  | write => exact Laws.RowMatches.write
  | read sendAck => exact Laws.RowMatches.read sendAck
  | recover => exact Laws.RowMatches.recover
  | lSetAddr highVariant => exact Laws.RowMatches.lSetAddr highVariant
  | lSetMode => exact Laws.RowMatches.lSetMode
  | lSetMt => exact Laws.RowMatches.lSetMt
  | lRead => exact Laws.RowMatches.lRead
  | uvWrCfg => exact Laws.RowMatches.uvWrCfg
  | uvRdReg => exact Laws.RowMatches.uvRdReg
  | uvStart => exact Laws.RowMatches.uvStart
  | uvRead => exact Laws.RowMatches.uvRead
  | frBuild => exact Laws.RowMatches.frBuild
  | cntInc => exact Laws.RowMatches.cntInc

/-- The one row that a command's word hits. -/
theorem rows_of_encode (i : Instr) :
    ∃ row, opcodeTable.filter (fun row => row.hits (encode i)) = [row] ∧ row.mnemonic = i.mnemonic := by
  obtain ⟨row, hrow, hm⟩ := List.map_eq_singleton_iff.mp (rowMatches i).1
  exact ⟨row, hrow, hm⟩

/-- A row is hit by its own word and, where it leaves F out of its mask, by that word with F = 1; by no other word. -/
theorem hits_cases {row : TableRow} {w : Word} (hrow : row ∈ opcodeTable) (h : row.hits w = true) :
    w = row.pattern ∨ (row.mask = 0xFFFFFEFF ∧ w = row.pattern ||| 0x100) := by
  have hmask : ∀ row ∈ opcodeTable, row.mask = 0xFFFFFFFF ∨ row.mask = 0xFFFFFEFF := by decide
  have hw : w &&& row.mask = row.pattern := by simpa [TableRow.hits] using h
  rcases hmask row hrow with hm | hm
  · left
    rw [← hw, hm]
    exact BitVec.and_allOnes.symm
  · have hsplit : w = row.pattern ||| w &&& 0x100 := by
      calc w = w &&& (0xFFFFFEFF ||| 0x100) := BitVec.and_allOnes.symm
        _ = row.pattern ||| w &&& 0x100 := by rw [BitVec.and_or_distrib_left, ← hw, hm]
    have hflag : w &&& 0x100 = if w.getLsbD 8 then 0x100 else 0 := BitVec.and_twoPow w 8
    rw [hflag] at hsplit
    split at hsplit
    · exact .inr ⟨hm, hsplit⟩
    · exact .inl (by simpa using hsplit)

/-- The table lists commands' words only. -/
theorem encode_of_hits {row : TableRow} {w : Word} (hrow : row ∈ opcodeTable) (h : row.hits w = true) :
    ∃ i, w = encode i := by
  have hpattern : ∀ row ∈ opcodeTable, (decodeWord row.pattern).isOk = true ∧
      (row.mask = 0xFFFFFEFF → (decodeWord (row.pattern ||| 0x100)).isOk = true) := by decide
  obtain ⟨h0, h1⟩ := hpattern row hrow
  have hok : (decodeWord w).isOk = true := by
    rcases hits_cases hrow h with rfl | ⟨hm, rfl⟩
    · exact h0
    · exact h1 hm
  cases hd : decodeWord w with
  | error c => simp [hd, Except.isOk, Except.toBool] at hok
  | ok i => exact ⟨i, eq_encode_of_decodeWord hd⟩

/-- Settles O2: a word that hits a row is a command's, and a command's word hits the one row of its mnemonic. -/
theorem tableRowsAgreeWithDecoder : Obligations.TableRowsAgreeWithDecoder := by
  have hmem {row : TableRow} {i : Instr} (hrow : row ∈ opcodeTable) (h : row.hits (encode i) = true) :
      row ∈ opcodeTable.filter (fun row => row.hits (encode i)) := List.mem_filter.mpr ⟨hrow, h⟩
  refine ⟨fun w m => ⟨?_, ?_⟩, fun w row hrow row' hrow' h h' => ?_⟩
  · rintro ⟨i, hi, rfl⟩
    obtain rfl := eq_encode_of_decodeWord hi
    obtain ⟨row, hrows, hm⟩ := rows_of_encode i
    obtain ⟨hrow, hhit⟩ := List.mem_filter.mp (hrows ▸ List.mem_singleton_self row)
    exact ⟨row, hrow, hm, hhit⟩
  · rintro ⟨row, hrow, rfl, h⟩
    obtain ⟨i, rfl⟩ := encode_of_hits hrow h
    obtain ⟨row', hrows, hm⟩ := rows_of_encode i
    obtain rfl := List.mem_singleton.mp (hrows ▸ hmem hrow h)
    exact ⟨i, decodeWord_encode i, hm.symm⟩
  · obtain ⟨i, rfl⟩ := encode_of_hits hrow h
    obtain ⟨row'', hrows, -⟩ := rows_of_encode i
    exact (List.mem_singleton.mp (hrows ▸ hmem hrow h)).trans (List.mem_singleton.mp (hrows ▸ hmem hrow' h')).symm

/-! ### Rejected words (R85) -/

theorem writeCmd_rejected {w : Word} {c : ErrCode} (h : decodeWord w = .error c) (s : State) :
    writeCmd w s = .next (raiseCmdError c (latchCommand w s)) := by
  simp [writeCmd, h]

/-- Settles O5: the two word checks in R81's order, and what the record of an error writes. -/
theorem rejectedWordOnlyRecordsError : Obligations.RejectedWordOnlyRecordsError := by
  intro w s n unassigned latched
  refine ⟨fun hn => ?_, fun hn hbad => ?_, fun c => ?_⟩
  · exact writeCmd_rejected (decodeWord_illegal (opcodeMap_eq_none_iff.mpr hn)) s
  · obtain ⟨row, hrow⟩ := Option.ne_none_iff_exists'.mp (mt opcodeMap_eq_none_iff.mp hn)
    have hunused : n ≠ 0x07 ∧ n ≠ 0x10 ↔ row.hasF = false := by
      rw [← Bool.not_eq_true, opcodeMap_hasF hrow, not_or]
    exact writeCmd_rejected (decodeWord_reserved hrow (hbad.imp_right (And.imp_right hunused.mp))) s
  · rcases raiseCmdError_cases c latched with ⟨herr, he⟩ | ⟨herr, he⟩
    · rw [he, if_neg (by rw [show s.status.err = false from herr]; decide)]
    · rw [he, if_pos herr]

/-! ### R92's word column -/

/-- Settles O4: each word of the list is its command's encoding, so O1's round trip decodes it; what is left is seven words of
that list again and two numbers of the table. -/
theorem writtenOutWordsDecode : Obligations.WrittenOutWordsDecode := by
  refine ⟨fun p hp => (decodeAcceptsExactlyEncodings p.1 p.2).mpr ?_, ?_⟩
  · revert p
    decide
  · decide

end Sys2Proof.Machine
end

section
/-! PROOFS. NOP (40_transport.md R112), and UV.WRCFG under the eager schedule (42_uv.md R156). -/

namespace Sys2Proof.Machine

/-- Settles O19: NOP is launched with the empty program. -/
theorem nopChangesNothing : Obligations.NopChangesNothing := fun s =>
  calc exec .nop s = .next (launch .nop nopProgram s) := rfl
    _ = .next s := rfl

/-- Settles O30: the program is one T_UVWR over the four bytes of S.arg. -/
theorem uvWrCfgSendsFourBytes : Obligations.UvWrCfgSendsFourBytes := by
  intro s a1 a2 a3 a4 acks hquiet hinit he
  obtain ⟨hidle, hphy⟩ := hquiet
  refine ⟨_, exec_run .uvWrCfg s (by simp) (by simp) (fun _ => hinit), rfl, ?_⟩
  refine eager_finish (eager_uvwr (n := 0) hphy he rfl rfl rfl rfl rfl rfl) rfl ?_
  simp [uvWritten, ByteSrc.eval, argByte, hidle]

end Sys2Proof.Machine
end

section
/-! PROOFS. The pulses of a recovery on every schedule of SEQ and PHY (40_transport.md R119, 42_uv.md R165): none where the
first sample is high, RECOVERY_PULSES before the second sample where it is low. -/

namespace Sys2Proof.Machine

/-! ### Pulses -/

/-- The recovery pulse a micro-op begins: SCL driven low (40_transport.md R119). -/
def MuOp.pulses : MuOp → Nat
  | .sclDrive false => 1
  | _ => 0

theorem pulseCount_append (tr tr' : List Record) : pulseCount (tr ++ tr') = pulseCount tr + pulseCount tr' :=
  List.countP_append

/-- The trace of `s'` holds `n` more pulses than that of `s`. -/
def Pulses (n : Nat) (s s' : State) : Prop := pulseCount s'.trace = pulseCount s.trace + n

theorem pulses_of_trace_eq {s s' : State} (h : s'.trace = s.trace) : Pulses 0 s s' := by simp [Pulses, h]

theorem pulses_of_record {n : Nat} {s s' : State} {x : Record} (h : s'.trace = s.trace ++ [x])
    (hx : pulseCount [x] = n) : Pulses n s s' := by
  rw [Pulses, h, pulseCount_append, hx]

theorem pulses_trans_zero {n : Nat} {s s1 s' : State} (h : Pulses n s s1) (h' : Pulses 0 s1 s') : Pulses n s s' := by
  rw [Pulses, h', h, Nat.add_zero]

theorem pulses_phyIssue (o : PhyOp) (s : State) : Pulses 0 s (phyIssue o s) := by
  rcases phyIssue_cases o s with ⟨-, h⟩ | ⟨-, -, h⟩ | ⟨-, h⟩ <;> rw [h] <;> exact pulses_of_record rfl rfl

theorem pulses_phyCond (c : Cond) (s : State) : Pulses 0 s (phyCond c s) := by
  unfold phyCond
  rcases emitCond_cases c s with ⟨-, h⟩ | ⟨-, -, h⟩ <;> rw [h] <;> exact pulses_of_record rfl rfl

theorem pulses_takeScl (s : State) : Pulses 0 s (takeScl s) := by
  rcases takeScl_cases s with ⟨-, h⟩ | ⟨-, -, h⟩ <;> rw [h]
  · exact pulses_of_record rfl rfl
  · exact pulses_trans_zero (s1 := collide .recover s) (pulses_of_record rfl rfl) (pulses_of_record rfl rfl)

theorem pulses_abandonOpen (s : State) : Pulses 0 s (abandonOpen s) := by
  unfold abandonOpen
  split
  · exact pulses_of_record rfl rfl
  · exact pulses_of_trace_eq rfl

theorem pulses_finishRecovery (v : Bool) (s : State) : Pulses 0 s (finishRecovery v s) := by
  unfold finishRecovery
  split
  · exact pulses_of_record rfl rfl
  · exact pulses_of_trace_eq rfl

theorem pulses_set (e : SetOp) (r : Run) (s : State) : Pulses 0 s (e.apply r s) := by
  cases e with
  | init => exact pulses_abandonOpen s
  | deinit => exact pulses_abandonOpen s
  | _ => exact pulses_of_trace_eq (by simp [SetOp.apply])

/-- A SEQ step drives the pulse its micro-op begins, and no other, in every state. -/
theorem muOp_pulses (u : MuOp) (r : Run) (s : State) : Pulses u.pulses s (u.run r s) := by
  have hadv {n : Nat} {s1 : State} (r1 : Run) (h : Pulses n s s1) : Pulses n s (advance r1 s1) :=
    pulses_trans_zero h (pulses_of_trace_eq (by simp [advance]))
  cases u with
  | cond c => exact hadv r (pulses_phyCond c s)
  | txgo b => exact hadv r (pulses_phyIssue (.tx (b.eval r s)) s)
  | rxgo => exact hadv r (pulses_phyIssue .rx s)
  | ackgo a => exact hadv r (pulses_phyIssue (.ackdrv a) s)
  | set e => exact hadv _ (pulses_set e r s)
  | sdaSample => exact hadv _ (pulses_of_record rfl rfl)
  | sclTake => exact hadv r (pulses_takeScl s)
  | sclDrive level => exact hadv r (pulses_of_record rfl (by cases level <;> rfl))
  | sclRestore => exact hadv r (pulses_of_record rfl rfl)
  | recFinish => exact hadv r (pulses_finishRecovery _ s)
  | brHigh target =>
    rcases brHigh_cases target r s with ⟨-, h⟩ | ⟨-, h⟩ <;> exact pulses_of_trace_eq (by simp [h, advance])
  | _ => exact pulses_of_trace_eq (by simp [MuOp.run, advance])

/-- A PHY turn logs completions only, and drives no pulse. -/
theorem pulses_phyStep (s : State) : Pulses 0 s (phyStep s) := by
  rcases phyStep_cases s with ⟨-, h⟩ | ⟨b, -, h⟩ | ⟨-, h⟩ | ⟨a, -, h⟩ <;> rw [h]
  · exact pulses_of_trace_eq rfl
  all_goals exact pulses_of_record rfl rfl

/-! ### Records of a recovery -/

/-- `tr'` is `tr` and then records that show `n` pulses and no bus operation. -/
def PulsesOnly (n : Nat) (tr tr' : List Record) : Prop := ∃ l, tr' = tr ++ l ∧ pulseCount l = n ∧ issuedKinds l = []

theorem pulsesOnly_refl (tr : List Record) : PulsesOnly 0 tr tr := ⟨[], by simp, rfl, rfl⟩

theorem pulsesOnly_trans {m n : Nat} {tr tr1 tr2 : List Record} (h : PulsesOnly m tr tr1) (h' : PulsesOnly n tr1 tr2) :
    PulsesOnly (m + n) tr tr2 := by
  obtain ⟨l, rfl, hp, hk⟩ := h
  obtain ⟨l', rfl, hp', hk'⟩ := h'
  exact ⟨l ++ l', by simp, by rw [pulseCount_append, hp, hp'], by rw [issuedKinds_append, hk, hk']; rfl⟩

/-- What a turn logs after the trace, counted. -/
theorem pulsesOnly_of {n : Nat} {s s' : State} (hl : ∃ l, s'.trace = s.trace ++ l) (hp : Pulses n s s')
    (hk : Issues none s s') : PulsesOnly n s.trace s'.trace := by
  obtain ⟨l, hl⟩ := hl
  rw [Pulses, hl, pulseCount_append] at hp
  rw [Issues, hl, issuedKinds_append] at hk
  exact ⟨l, hl, Nat.add_left_cancel hp, List.append_cancel_left hk⟩

theorem muOp_pulsesOnly {u : MuOp} (hu : u.kind = none) (r : Run) (s : State) :
    PulsesOnly u.pulses s.trace (u.run r s).trace := by
  obtain ⟨l, hl, -⟩ := muOp_logs u r s
  exact pulsesOnly_of ⟨l, hl⟩ (muOp_pulses u r s) (hu ▸ muOp_issues u r s)

theorem phyStep_pulsesOnly (s : State) : PulsesOnly 0 s.trace (phyStep s).trace :=
  pulsesOnly_of (phyStep_trace s) (pulses_phyStep s) (issues_phyStep s)

/-! ### Where a recovery stands -/

/-- The pulses of the recovery segment before its micro-op `k`. -/
def pulsesBefore (k : Nat) : Nat := ((recovery.take k).map MuOp.pulses).sum

/-- A program that recovers begins with the recovery segment. -/
theorem segment_recovery {i : Instr} (h : recovers i = true) : Segment (program i) 0 recovery := by
  rcases recovers_iff.mp h with rfl | rfl <;> rfl

theorem program_recovery {i : Instr} {k : Nat} {u : MuOp} (h : recovers i = true) (hu : recovery[k]? = some u) :
    (program i)[k]? = some u := by
  simpa using segment_at (segment_recovery h) hu

theorem pulsesBefore_succ {k : Nat} {u : MuOp} (h : recovery[k]? = some u) :
    pulsesBefore (k + 1) = pulsesBefore k + u.pulses := by
  simp [pulsesBefore, List.take_add_one, h]

/-- The sequencer is past the second sample of the recovery, or idle. -/
def State.pastSample (s : State) : Prop := ∀ r, s.seq = .run r → 37 ≤ r.step

/-- How far a recovery has come that began on the trace `tr`, with the data line's first sample `first`. -/
inductive RecoveryAt (tr : List Record) (first : Bool) (sdas : List Bool) (s : State) : Prop where
  | sampling (r : Run) (hr : s.seq = .run r) (hop : recovers r.op = true) (hstep : r.step = 0)
      (hsdas : s.env.sdas = first :: sdas) (htr : PulsesOnly 0 tr s.trace)
  | branching (r : Run) (hr : s.seq = .run r) (hop : recovers r.op = true) (hstep : r.step = 1) (hsda : r.sda = first)
      (htr : PulsesOnly 0 tr s.trace)
  | pulsing (r : Run) (hr : s.seq = .run r) (hop : recovers r.op = true) (hlo : 2 ≤ r.step) (hhi : r.step ≤ 36)
      (hlow : first = false) (htr : PulsesOnly (pulsesBefore r.step) tr s.trace)
  | high (hpast : s.pastSample) (hhigh : first = true) (htr : pulseCount s.trace = pulseCount tr)
  | low (hpast : s.pastSample) (hlow : first = false) (mid post : List Record) (x : Record) (v : Bool)
      (htr : s.trace = tr ++ mid ++ x :: post) (hx : x.event = .sda v) (hmid : pulseCount mid = Config.RECOVERY_PULSES)
      (hkinds : issuedKinds mid = []) (hpost : pulseCount post = 0)

/-- Nothing after the second sample drives a pulse. -/
theorem recoveryAt_past {tr : List Record} {first : Bool} {sdas : List Bool} {s s' : State} (hpast : s.pastSample)
    (hpast' : s'.pastSample) (h : RecoveryAt tr first sdas s) (hl : ∃ l, s'.trace = s.trace ++ l) (hp : Pulses 0 s s') :
    RecoveryAt tr first sdas s' := by
  obtain ⟨l, hl⟩ := hl
  rw [Pulses, hl, pulseCount_append] at hp
  have hnone : pulseCount l = 0 := by omega
  cases h with
  | sampling r hr hop hstep => exact absurd (hpast r hr) (by omega)
  | branching r hr hop hstep => exact absurd (hpast r hr) (by omega)
  | pulsing r hr hop hlo hhi => exact absurd (hpast r hr) (by omega)
  | high _ hhigh htr => exact .high hpast' hhigh (by rw [hl, pulseCount_append, htr, hnone, Nat.add_zero])
  | low _ hlow mid post x v htr hx hmid hkinds hpost =>
    exact .low hpast' hlow mid (post ++ l) x v (by simp [hl, htr]) hx hmid hkinds
      (by rw [pulseCount_append, hpost, hnone])

/-- No PHY turn samples the data line. -/
theorem phyStep_sdas (s : State) : (phyStep s).env.sdas = s.env.sdas := by
  have hack : s.env.takeAck.2.sdas = s.env.sdas := by unfold Env.takeAck; split <;> rfl
  have hbyte : s.env.takeByte.2.sdas = s.env.sdas := by unfold Env.takeByte; split <;> rfl
  rcases phyStep_cases s with ⟨-, h⟩ | ⟨b, -, h⟩ | ⟨-, h⟩ | ⟨a, -, h⟩ <;> rw [h]
  · exact hack
  · exact hbyte

theorem phyStep_recoveryAt {tr : List Record} {first : Bool} {sdas : List Bool} {s : State}
    (h : RecoveryAt tr first sdas s) : RecoveryAt tr first sdas (phyStep s) := by
  have hseq : (phyStep s).seq = s.seq := by rw [phyStep_eq]
  have hsdas : (phyStep s).env.sdas = s.env.sdas := phyStep_sdas s
  have hlog {n : Nat} (htr : PulsesOnly n tr s.trace) : PulsesOnly n tr (phyStep s).trace :=
    pulsesOnly_trans htr (phyStep_pulsesOnly s)
  have hlater (hpast : s.pastSample) : RecoveryAt tr first sdas (phyStep s) :=
    recoveryAt_past hpast (fun r hr => hpast r (hseq ▸ hr)) h (phyStep_trace s) (pulses_phyStep s)
  cases h with
  | sampling r hr hop hstep hs htr => exact .sampling r (hseq ▸ hr) hop hstep (hsdas ▸ hs) (hlog htr)
  | branching r hr hop hstep hsda htr => exact .branching r (hseq ▸ hr) hop hstep hsda (hlog htr)
  | pulsing r hr hop hlo hhi hlow htr => exact .pulsing r (hseq ▸ hr) hop hlo hhi hlow (hlog htr)
  | high hpast => exact hlater hpast
  | low hpast => exact hlater hpast

/-- The program of a running command that recovers holds the second sample, at 36. -/
theorem recovers_prog_length {s : State} {r : Run} (hok : SequencerOk s) (hr : s.seq = .run r)
    (hop : recovers r.op = true) : 36 < r.prog.length := by
  obtain ⟨hprog, -, -⟩ := hok r hr
  rw [hprog]
  exact recovers_length hop

/-- A SEQ step of a recovery's micro-op `u`, at micro-op `k` of its segment. -/
theorem seqStep_recovery {s : State} {r : Run} {k : Nat} {u : MuOp} (hok : SequencerOk s) (hr : s.seq = .run r)
    (hop : recovers r.op = true) (hk : r.step = k) (hu : recovery[k]? = some u) : seqStep s = u.run r s := by
  obtain ⟨hprog, -, -⟩ := hok r hr
  refine seqStep_run hr ?_
  rw [hprog, hk, program_recovery hop hu]

/-- From SCL_TAKE up to SCL_RESTORE, a recovery's micro-op neither waits nor branches nor issues. -/
theorem recovery_between {k : Nat} (hlo : 2 ≤ k) (hhi : k < 36) :
    ∃ u, recovery[k]? = some u ∧ u.kind = none ∧ ¬ u.isWait ∧ ∀ n, u ≠ .brHigh n := by
  have h : ∀ k < 36, 2 ≤ k → ∃ u, recovery[k]? = some u ∧
      (u = .sclTake ∨ u = .sclRestore ∨ u = .sclDrive false ∨ u = .sclDrive true ∨ u = .delay Config.T_PHASE) := by
    intro k hk h2
    interval_cases k <;> exact ⟨_, rfl, by decide⟩
  obtain ⟨u, hu, rfl | rfl | rfl | rfl | rfl⟩ := h k hhi hlo <;> exact ⟨_, hu, rfl, by simp [MuOp.isWait], by simp⟩

/-- After a micro-op that neither waits nor branches, a SEQ step goes on to the next one, or to the program's end. -/
theorem seqMoves_next {u : MuOp} {r : Run} {s' : State} (h : SeqMoves u r s') (hwait : ¬ u.isWait)
    (hbr : ∀ n, u ≠ .brHigh n) :
    (s'.seq = .idle ∧ r.prog.length ≤ r.step + 1) ∨ ∃ r', s'.seq = .run r' ∧ r'.op = r.op ∧ r'.step = r.step + 1 := by
  cases h with
  | finish n hn hend hseq => exact .inl ⟨hseq, (hn.resolve_right (hbr n)) ▸ hend⟩
  | poll hw => exact absurd hw hwait
  | goto r' hop hprog hiter hstep hlt' hseq => exact .inr ⟨r', hseq, hop, hstep.resolve_right (hbr _)⟩

theorem pastSample_of_run {s : State} {r : Run} (h : s.seq = .run r) (hstep : 37 ≤ r.step) : s.pastSample := by
  intro r' hr'
  rw [h] at hr'
  obtain rfl := Sequencer.run.inj hr'
  exact hstep

theorem pastSample_of_idle {s : State} (h : s.seq = .idle) : s.pastSample := fun r hr => by simp [h] at hr

/-- Past the second sample a SEQ step stays past it and drives no pulse. -/
theorem seqStep_past {s : State} (hok : SequencerOk s) (hpast : s.pastSample) :
    (seqStep s).pastSample ∧ Pulses 0 s (seqStep s) := by
  cases hr : s.seq with
  | idle => rw [seqStep_idle hr]; exact ⟨hpast, pulses_of_trace_eq rfl⟩
  | run r =>
    have h37 := hpast r hr
    obtain ⟨u, -, hstands, hstep⟩ := seqStep_standsAt hok hr
    have hbr : ∀ n, u ≠ .brHigh n := by
      rintro n rfl
      simp [standsAt] at hstands
      omega
    have hnone : u.pulses = 0 := by
      unfold MuOp.pulses
      split
      · simp [standsAt] at hstands
        omega
      · rfl
    rw [hstep]
    refine ⟨?_, hnone ▸ muOp_pulses u r s⟩
    cases muOp_seqMoves u r s with
    | finish n hn hend hseq => exact pastSample_of_idle hseq
    | poll hw hiter hseq => exact pastSample_of_run hseq h37
    | goto r' hop hprog hiter hn hlt hseq =>
      refine pastSample_of_run hseq ?_
      have := hn.resolve_right (hbr _)
      omega

section
variable {tr : List Record} {first : Bool} {sdas : List Bool} {s : State} {r : Run}

/-- The first SDA_SAMPLE draws `first`. -/
theorem seqStep_sampling (hok : SequencerOk s) (hr : s.seq = .run r) (hop : recovers r.op = true) (hstep : r.step = 0)
    (hsdas : s.env.sdas = first :: sdas) (htr : PulsesOnly 0 tr s.trace) : RecoveryAt tr first sdas (seqStep s) := by
  have hlen := recovers_prog_length hok hr hop
  have hlog := muOp_pulsesOnly (u := .sdaSample) rfl r s
  rw [seqStep_recovery (u := .sdaSample) hok hr hop hstep rfl]
  refine .branching { r with sda := first, step := 1, iter := 0 } ?_ hop rfl rfl (pulsesOnly_trans htr hlog)
  rw [MuOp.run, advance, advanceTo_lt (by simp only; omega), sampleSda, takeSda_cons hsdas]
  simp [hstep]

/-- BR_HIGH leaves the segment where the first sample was high, and goes on to SCL_TAKE where it was low. -/
theorem seqStep_branching (hok : SequencerOk s) (hr : s.seq = .run r) (hop : recovers r.op = true) (hstep : r.step = 1)
    (hsda : r.sda = first) (htr : PulsesOnly 0 tr s.trace) : RecoveryAt tr first sdas (seqStep s) := by
  have hlen := recovers_prog_length hok hr hop
  have hlog := pulsesOnly_trans htr (muOp_pulsesOnly (u := .brHigh recoveryLength) rfl r s)
  rw [seqStep_recovery (u := .brHigh recoveryLength) hok hr hop hstep rfl]
  rcases brHigh_cases recoveryLength r s with ⟨hhigh, h⟩ | ⟨hlow, h⟩
  · obtain ⟨l, hl, hnone, -⟩ := hlog
    refine .high ?_ (hsda ▸ hhigh) (by rw [hl, pulseCount_append, hnone]; rfl)
    rw [h]
    rcases advanceTo_cases recoveryLength r (foundHigh s) with ⟨-, ha⟩ | ⟨-, ha⟩ <;> rw [ha]
    · exact pastSample_of_run rfl (show 37 ≤ recoveryLength by decide)
    · exact pastSample_of_idle rfl
  · refine .pulsing { r with step := 2, iter := 0 } ?_ hop (by simp) (by simp) (hsda ▸ hlow) hlog
    rw [h, advance, advanceTo_lt (by omega), hstep]

/-- Up to SCL_RESTORE each micro-op logs its pulse, if it is one. -/
theorem seqStep_pulsing (hok : SequencerOk s) (hr : s.seq = .run r) (hop : recovers r.op = true) (hlo : 2 ≤ r.step)
    (hlt : r.step < 36) (hlow : first = false) (htr : PulsesOnly (pulsesBefore r.step) tr s.trace) :
    RecoveryAt tr first sdas (seqStep s) := by
  have hlen := recovers_prog_length hok hr hop
  obtain ⟨u, hu, hkind, hwait, hbr⟩ := recovery_between hlo hlt
  rw [seqStep_recovery hok hr hop rfl hu]
  obtain ⟨-, hend⟩ | ⟨r', hr', hop', hstep'⟩ := seqMoves_next (muOp_seqMoves u r s) hwait hbr
  · omega
  · refine .pulsing r' hr' (hop' ▸ hop) (by omega) (by omega) hlow ?_
    rw [hstep', pulsesBefore_succ hu]
    exact pulsesOnly_trans htr (muOp_pulsesOnly hkind r s)

/-- The second SDA_SAMPLE, after RECOVERY_PULSES pulses and before any bus operation. -/
theorem seqStep_resampling (hok : SequencerOk s) (hr : s.seq = .run r) (hop : recovers r.op = true) (hstep : r.step = 36)
    (hlow : first = false) (htr : PulsesOnly (pulsesBefore 36) tr s.trace) : RecoveryAt tr first sdas (seqStep s) := by
  obtain ⟨mid, hmid, hpulses, hkinds⟩ := htr
  have hnext := seqMoves_next (muOp_seqMoves .sdaSample r s) (by simp [MuOp.isWait]) (by simp)
  rw [seqStep_recovery (u := .sdaSample) hok hr hop hstep rfl]
  refine .low ?_ hlow mid [] ⟨.sda s.env.takeSda.1, ⟨false, false, s.phy.poisoned⟩⟩ _ ?_ rfl hpulses hkinds rfl
  · obtain ⟨hidle, -⟩ | ⟨r', hr', -, hstep'⟩ := hnext
    · exact pastSample_of_idle hidle
    · exact pastSample_of_run hr' (by omega)
  · simp [MuOp.run, advance, sampleSda, hmid]

theorem seqStep_recoveryAt (hok : SequencerOk s) (h : RecoveryAt tr first sdas s) :
    RecoveryAt tr first sdas (seqStep s) := by
  have hlater (hpast : s.pastSample) : RecoveryAt tr first sdas (seqStep s) := by
    obtain ⟨hpast', hpulses⟩ := seqStep_past hok hpast
    obtain ⟨l, hl, -⟩ := seqStep_logs s
    exact recoveryAt_past hpast hpast' h ⟨l, hl⟩ hpulses
  cases h with
  | sampling r hr hop hstep hsdas htr => exact seqStep_sampling hok hr hop hstep hsdas htr
  | branching r hr hop hstep hsda htr => exact seqStep_branching hok hr hop hstep hsda htr
  | pulsing r hr hop hlo hhi hlow htr =>
    rcases Nat.lt_or_eq_of_le hhi with hlt | heq
    · exact seqStep_pulsing hok hr hop hlo hlt hlow htr
    · exact seqStep_resampling hok hr hop heq hlow (heq ▸ htr)
  | high hpast => exact hlater hpast
  | low hpast => exact hlater hpast

end

/-- Settles O55: `RecoveryAt` holds at the launch, every SEQ and PHY turn keeps it, and it leaves an idle sequencer two
outcomes. -/
theorem recoveryDrivesExactlyEightPulses : Obligations.RecoveryDrivesExactlyEightPulses := by
  intro i s t u ts first sdas hi hidle hsdas hexec hb hts hrun hend
  obtain ⟨hne, rfl⟩ := exec_busy hidle hexec hb
  have hstart : SequencerOk (s.at (Run.fresh i (program i))) ∧
      RecoveryAt s.trace first sdas (s.at (Run.fresh i (program i))) :=
    ⟨sequencerOk_of_run rfl rfl (List.length_pos_iff.mpr hne) retryMax_pos,
      .sampling _ rfl (recovers_iff.mpr hi) rfl hsdas (pulsesOnly_refl _)⟩
  obtain ⟨-, hall⟩ := runTurns_keeps (P := fun q => SequencerOk q ∧ RecoveryAt s.trace first sdas q)
    (fun _ ⟨hok, h⟩ => ⟨seqStep_sequencerOk hok, seqStep_recoveryAt hok h⟩)
    (fun _ ⟨hok, h⟩ => ⟨phyStep_sequencerOk hok, phyStep_recoveryAt h⟩) hts hrun hstart
  cases hall with
  | sampling r hr | branching r hr | pulsing r hr => exact absurd (hend.symm.trans hr) nofun
  | high _ hhigh htr =>
    subst hhigh
    exact ⟨fun _ => htr, nofun⟩
  | low _ hlow mid post x v htr hx hmid hkinds hpost =>
    subst hlow
    exact ⟨nofun, fun _ => ⟨mid, x, post, htr, ⟨v, hx⟩, hmid, hkinds, hpost⟩⟩

end Sys2Proof.Machine
end

section
/-! PROOFS. The launch of a command (40_transport.md R101, R102), and the transport commands on a quiet bus or in one step
(R106 to R117). -/

namespace Sys2Proof.Machine

/-! ### The launch -/

/-- Settles O17: the cases of `exec_eq`, read off the INIT column of the opcode map. -/
theorem busCommandsNeedInit : Obligations.BusCommandsNeedInit := by
  intro s
  refine ⟨fun i sa hoff hi => ?_, fun i hv hi => ?_, fun hclk => ?_, fun hclk => ?_⟩
  · have hbus : i ≠ .init ∧ needsInit i = true := by
      revert i
      simp [needsInit]
    rw [exec_eq, if_neg fun h => hbus.1 h.1, if_pos ⟨hbus.2, hoff⟩]
  · have hfree : i ≠ .init ∧ needsInit i = false := by
      revert i
      simp [needsInit]
    rw [exec_eq, if_neg fun h => hfree.1 h.1, if_neg fun h => by simp [hfree.2] at h]
  · rw [exec_eq, if_neg fun h => hclk h.2, if_neg fun h => by simp [needsInit] at h]
  · rw [exec_eq, if_pos ⟨rfl, hclk⟩]

/-- Settles O18: a launch is a rejection, which writes the error record, or it sets S.seq. -/
theorem launchFrame : Obligations.LaunchFrame := by
  intro i s t h
  rcases exec_cases h with ⟨c, -, rfl⟩ | ⟨-, rfl⟩
  · right
    rcases raiseCmdError_cases c s with ⟨-, he⟩ | ⟨-, he⟩ <;> rw [he]
  · left
    rcases launch_cases i (program i) s with ⟨-, hl⟩ | ⟨-, hl⟩ <;> rw [hl]

/-! ### INIT and DEINIT -/

/-- INIT and DEINIT log ABANDON where a transfer was in flight or a transaction was open (40_transport.md R110, R111). -/
theorem abandonOpen_eq (s : State) :
    abandonOpen s = { s with trace := s.trace ++
      (if s.phy.pending ≠ none ∨ s.fs = .opened then [⟨.abandon, ⟨false, false, s.phy.poisoned⟩⟩] else []) } := by
  unfold abandonOpen
  simp only [Bool.or_eq_true, inFlight_eq_true, isOpen_eq_true]
  split
  · rfl
  · simp

/-- A program of one SET: its one SEQ step is the SET, and the sequencer is idle after it. -/
theorem runTurns_single_set {i : Instr} {e : SetOp} (h : program i = [.set e]) (s : State) :
    runTurns [.seq] (s.at (Run.fresh i (program i))) =
      .next { e.apply (Run.fresh i (program i)) (s.at (Run.fresh i (program i))) with seq := .idle } := by
  rw [runTurns_seq, runTurns_nil, seqStep_run (u := .set e) rfl (by rw [h]; rfl), MuOp.run, advance,
    advanceTo_end (by simp [h, Run.fresh])]

/-- Settles O20: INIT's one micro-op, R110's SET. -/
theorem initResetsThePhy : Obligations.InitResetsThePhy := by
  intro s hidle hclk
  refine ⟨_, exec_run .init s (by simp) (fun _ => hclk) (by simp [needsInit]), rfl, ?_⟩
  rw [runTurns_single_set (i := .init) rfl, SetOp.apply, initEffect, abandonOpen_eq]
  simp [argWord, hidle]

/-- Settles O21: DEINIT's one micro-op, R111's SET. -/
theorem deinitReleasesTheBus : Obligations.DeinitReleasesTheBus := by
  intro s hidle
  refine ⟨_, exec_run .deinit s (by simp) (by simp) (by simp [needsInit]), rfl, ?_⟩
  rw [runTurns_single_set (i := .deinit) rfl, SetOp.apply, deinitEffect, abandonOpen_eq]
  simp [hidle]

/-! ### START, RSTART, STOP, WRITE, READ on a quiet bus -/

/-- A command whose program is one condition: WAIT_IDLE sees the idle PHY at its first poll. -/
theorem eager_single_cond {i : Instr} {c : Cond} (h : program i = [.waitIdle, .cond c]) {s : State} (hquiet : s.quiet) :
    runTurns (eager 2) (s.at (Run.fresh i (program i))) =
      .next { s with fs := c.framing, trace := s.trace ++ [emitted s.fs c] } := by
  obtain ⟨hidle, hphy⟩ := hquiet
  refine eager_finish (eager_cond (n := 0) hphy rfl (by rw [h]; rfl) (by rw [h]; rfl)) (by rw [h]; rfl) ?_
  simp [conditioned, hidle]

/-- Settles O22: three programs of one condition each. -/
theorem conditionsFrameTheBus : Obligations.ConditionsFrameTheBus := by
  intro s hquiet hinit
  refine ⟨⟨_, exec_run .start s (by simp) (by simp) (fun _ => hinit), rfl, ?_⟩,
    ⟨_, exec_run .rstart s (by simp) (by simp) (fun _ => hinit), rfl, ?_⟩,
    ⟨_, exec_run .stop s (by simp) (by simp) (fun _ => hinit), rfl, ?_⟩⟩
  · rw [eager_single_cond (i := .start) rfl hquiet]
    simp [emitted, unframed_eq, reopen_eq, Cond.framing]
  · rw [eager_single_cond (i := .rstart) rfl hquiet]
    simp [emitted, unframed_eq, reopen_eq, Cond.framing]
  · rw [eager_single_cond (i := .stop) rfl hquiet]
    simp [emitted, unframed_eq, reopen_eq, Cond.framing]

/-- Settles O23: the program is one T_WRITE of S.arg's lowest byte. -/
theorem writeSendsByteAndLatchesAck : Obligations.WriteSendsByteAndLatchesAck := by
  intro s a acks hquiet hinit he
  obtain ⟨hidle, hphy⟩ := hquiet
  refine ⟨_, exec_run .write s (by simp) (by simp) (fun _ => hinit), rfl, ?_⟩
  refine eager_finish (eager_write (n := 0) hphy rfl rfl rfl rfl rfl rfl) rfl ?_
  simp [wroteByte, takeAck_cons he, ByteSrc.eval, argByte, bitWord, nack_one, hidle]

/-- Settles O24: the program is one T_READ into RES. -/
theorem readReceivesByteAndDrivesAck : Obligations.ReadReceivesByteAndDrivesAck := by
  intro s sendAck b bytes hquiet hinit hb
  obtain ⟨hidle, hphy⟩ := hquiet
  refine ⟨_, exec_run (.read sendAck) s (by simp) (by simp) (fun _ => hinit), rfl, ?_⟩
  refine eager_finish (eager_read (n := 0) (sa := sendAck) (dst := .res) hphy rfl rfl rfl rfl rfl rfl) rfl ?_
  simp [readByte, takeByte_cons hb, RxDst.result, hidle]

/-! ### The PHY's completion -/

/-- Settles O40: the completion of each kind of transfer, and the two cases where the PHY does nothing. -/
theorem phyCompletesTheTransfer : Obligations.PhyCompletesTheTransfer := by
  intro s
  refine ⟨fun hidle => ?_, fun hclean => ⟨fun b hp => ?_, fun hp => ?_, fun x hp => ?_⟩⟩
  · rcases hidle with hp | hp
    · exact phyStep_poisoned hp
    · simp [phyStep, hp]
  · simp [phyStep, hclean, hp, log, logFlagged, plain]
  · simp [phyStep, hclean, hp, log, logFlagged, plain]
  · simp [phyStep, hclean, hp, log, logFlagged, plain]

end Sys2Proof.Machine
end

section
/-! PROOFS. Bounded waits that are not met, and WRITE on a wedged or a busy bus (40_transport.md R104, R105, R115, R120). -/

namespace Sys2Proof.Machine

/-! ### Polls -/

/-- `step <- step + 1` moves S.seq alone: to the next micro-op, or to idle at the program's end (10_state.md R50). -/
theorem advance_eq (r : Run) (s : State) :
    advance r s = { s with
      seq := if r.step + 1 < r.prog.length then .run { r with step := r.step + 1, iter := 0 } else .idle } := by
  unfold advance advanceTo
  split <;> rfl

/-- What a poll answers (40_transport.md R105): a draw while the PHY is poisoned, else S.ci or whether the PHY is idle. -/
theorem poll_eq {u : MuOp} (hu : u.isWait) (r : Run) (s : State) :
    u.run r s = waitPoll
      (if s.phy.poisoned then s.env.takePoll.1 else if u = .waitCi then s.ci else decide (s.phy.pending = none)) r
      (if s.phy.poisoned then { s with env := s.env.takePoll.2 } else s) := by
  have hidle : (!PhyOp.inFlight s.phy.pending) = decide (s.phy.pending = none) := by cases s.phy.pending <;> rfl
  rcases hu with rfl | rfl
  · cases hp : s.phy.poisoned <;> simp [MuOp.run, pollIdle, hp, hidle]
  · cases hp : s.phy.poisoned <;> simp [MuOp.run, pollCi, hp]

/-- Settles O36: the three branches of a poll. -/
theorem waitPollsOncePerStep : Obligations.WaitPollsOncePerStep := by
  intro s r u hr hu hwait ok s0 next
  have hstep : seqStep s = waitPoll ok r s0 := (seqStep_run hr hu).trans (poll_eq hwait r s)
  obtain ⟨hstatus, hdiag⟩ : s0.status = s.status ∧ s0.diag = s.diag := by
    cases hp : s.phy.poisoned <;> simp [s0, hp]
  rw [hstep]
  refine ⟨fun hok => ?_, fun hok hlt => ?_, fun hok hge => ?_⟩
  · rw [hok, waitPoll, if_pos rfl, advance_eq]
  · rw [hok, waitPoll, if_neg (by simp), if_pos hlt]
  · rw [hok, waitPoll, if_neg (by simp), if_neg hge, advance_eq, recordTimeout, hstatus, hdiag]

/-! ### A wait whose event never comes -/

/-- The run waits, at `s`, for an event that has not come: an idle PHY with a transfer in flight, a completion with
S.ci = 0 (40_transport.md R104, R105). -/
def State.unmet (s : State) (r : Run) : Prop :=
  s.phy.poisoned = false ∧
    ((r.prog[r.step]? = some .waitIdle ∧ s.phy.pending ≠ none) ∨ (r.prog[r.step]? = some .waitCi ∧ s.ci = false))

theorem seqStep_unmet {b : State} {r : Run} (h : b.unmet r) : seqStep (b.at r) = waitPoll false r (b.at r) := by
  obtain ⟨hclean, ⟨hu, hbusy⟩ | ⟨hu, hci⟩⟩ := h
  · rw [seqStep_run rfl hu, poll_eq (.inl rfl)]
    simp [hclean, hbusy]
  · rw [seqStep_run rfl hu, poll_eq (.inr rfl)]
    simp [hclean, hci]

theorem runTurns_stalled_succ {n : Nat} {s t : State} (h : runTurns (stalled n) s = .next t) :
    runTurns (stalled (n + 1)) s = .next (seqStep t) := by
  rw [stalled_add, runTurns_append h]
  rfl

/-- Below RETRY_MAX polls the run counts them and stays where it is. -/
theorem stalled_polls {b : State} {r : Run} (h : b.unmet r) (hiter : r.iter = 0) {k : Nat} (hk : k < Config.RETRY_MAX) :
    runTurns (stalled k) (b.at r) = .next (b.at { r with iter := k }) := by
  induction k with
  | zero =>
    have hr : { r with iter := 0 } = r := by rw [← hiter]
    rw [hr]
    rfl
  | succ k ih =>
    rw [runTurns_stalled_succ (ih (by omega)), seqStep_unmet (r := { r with iter := k }) h, waitPoll, if_neg (by simp),
      if_pos hk]

/-- The last poll records the timeout and goes on. -/
theorem stalled_wait {b : State} {r : Run} (h : b.unmet r) (hiter : r.iter = 0) :
    runTurns (stalled Config.RETRY_MAX) (b.at r) = .next (advance r (recordTimeout b)) := by
  have hlast : Config.RETRY_MAX = Config.RETRY_MAX - 1 + 1 := rfl
  rw [hlast, runTurns_stalled_succ (stalled_polls h hiter (by decide)),
    seqStep_unmet (r := { r with iter := Config.RETRY_MAX - 1 }) h, waitPoll, if_neg (by simp),
    if_neg (show ¬ Config.RETRY_MAX - 1 + 1 < Config.RETRY_MAX by decide), advance_eq, advance_eq]
  rfl

/-- Settles O37: the count of the polls, by induction, and the last poll. -/
theorem waitExhaustsAfterRetryMaxPolls : Obligations.WaitExhaustsAfterRetryMaxPolls := by
  intro s r hr hiter hclean hwait
  have hunmet : s.unmet r := ⟨hclean, hwait⟩
  have hat : s = s.at r := by rw [State.at, ← hr]
  refine ⟨fun k hk => ?_, ?_⟩
  · rw [hat]
    exact stalled_polls hunmet hiter hk
  · rw [hat, stalled_wait hunmet hiter, advance_eq]
    rfl

/-! ### WRITE on a bus that does not complete -/

/-- The SEQ step of a micro-op that acts on the state by `f` and goes on. -/
theorem seqStep_at {b : State} {r : Run} {u : MuOp} {f : State → State} (hu : r.prog[r.step]? = some u)
    (hlt : r.step + 1 < r.prog.length) (hrun : u.run r (b.at r) = advance r (f (b.at r)))
    (hf : ∀ q, f { b with seq := q } = { f b with seq := q }) : seqStep (b.at r) = (f b).at (r.goto (r.step + 1)) := by
  rw [seqStep_run rfl hu, hrun, advance, advanceTo_lt hlt, hf]

/-- Issuing a transfer neither reads nor writes S.seq. -/
theorem phyIssue_at (o : PhyOp) (b : State) (q : Sequencer) :
    phyIssue o { b with seq := q } = { phyIssue o b with seq := q } := by
  simp only [phyIssue]
  split
  · rfl
  · split <;> rfl

/-- A running WRITE, at its micro-op `n`. -/
abbrev writeRun (n : Nat) : Run := (Run.fresh .write (program .write)).goto n

/-- WRITE's first two steps, whatever the PHY does: S.ci is cleared and the byte is issued (40_transport.md R115). -/
theorem stalled_write_issue (s : State) :
    runTurns (stalled 2) (s.at (writeRun 0)) =
      .next ((phyIssue (.tx (s.argLatch.extractLsb' 0 8)) { s with ci := false }).at (writeRun 2)) := by
  have hclear : seqStep (s.at (writeRun 0)) = ({ s with ci := false } : State).at (writeRun 1) :=
    seqStep_at (u := .clrCi) (f := fun q => { q with ci := false }) rfl (by decide) rfl fun _ => rfl
  have hissue : seqStep (({ s with ci := false } : State).at (writeRun 1)) =
      (phyIssue (.tx (s.argLatch.extractLsb' 0 8)) { s with ci := false }).at (writeRun 2) :=
    seqStep_at (u := .txgo (.arg 0)) (r := writeRun 1) rfl (by decide) rfl (phyIssue_at _ _)
  rw [runTurns_stalled_succ (runTurns_stalled_succ rfl), hclear, hissue]

/-- Settles O39: the second step's issue finds the transfer in flight. -/
theorem writeOnBusyPhyCollides : Obligations.WriteOnBusyPhyCollides := by
  intro s o hidle hinit hphy
  refine ⟨_, _, exec_run .write s (by simp) (by simp) (fun _ => hinit), stalled_write_issue s, ?_, rfl⟩
  rw [phyIssue, if_neg (by simp [hphy]), if_pos (by simp [hphy]), collide_eq _ (by simp [hphy])]

/-- The byte `x` issued on a quiet bus, and not completed. -/
def writePending (x : Byte) (s : State) : State :=
  { s with ci := false, phy := ⟨some (.tx x), false⟩, trace := s.trace ++ [issued s.fs (.tx x)] }

theorem phyIssue_writePending {s : State} (h : s.phy = ⟨none, false⟩) (x : Byte) :
    phyIssue (.tx x) { s with ci := false } = writePending x s := by
  simp [phyIssue, h, logFlagged, issued, writePending]

/-- Settles O38: two steps up to the issue, RETRY_MAX polls for a completion that does not come, and CAP_ACK of the stale
latch. -/
theorem writeTimesOutWithStaleAck : Obligations.WriteTimesOutWithStaleAck := by
  intro s hquiet hinit
  obtain ⟨hidle, hphy⟩ := hquiet
  refine ⟨_, exec_run .write s (by simp) (by simp) (fun _ => hinit), ?_⟩
  let x : Byte := s.argLatch.extractLsb' 0 8
  have hwait : runTurns (stalled Config.RETRY_MAX) ((writePending x s).at (writeRun 2)) =
      .next ((recordTimeout (writePending x s)).at (writeRun 3)) :=
    stalled_wait ⟨rfl, .inr ⟨rfl, rfl⟩⟩ rfl
  have hfirst : runTurns (stalled (2 + Config.RETRY_MAX)) (s.at (writeRun 0)) =
      .next ((recordTimeout (writePending x s)).at (writeRun 3)) := by
    rw [stalled_add, runTurns_append (stalled_write_issue s), phyIssue_writePending hphy, hwait]
  have hcap : seqStep ((recordTimeout (writePending x s)).at (writeRun 3)) =
      { captureAck true (recordTimeout (writePending x s)) with seq := .idle } :=
    seqStep_run (u := .capAck true) (r := writeRun 3) rfl rfl
  calc runTurns (stalled (2 + Config.RETRY_MAX + 1)) (s.at (writeRun 0))
    _ = .next { captureAck true (recordTimeout (writePending x s)) with seq := .idle } := by
      rw [runTurns_stalled_succ hfirst, hcap]
    _ = _ := by simp [captureAck, obsAck, recordTimeout, writePending, x, bitWord, nack_one, hidle]

end Sys2Proof.Machine
end

section
/-! PROOFS. The commands that recover, on a quiet bus: RECOVER and UV.READ, whole (40_transport.md R119, 42_uv.md R164). -/

namespace Sys2Proof.Machine

/-! ### RECOVER with no transfer in flight -/

/-- RECOVER's program ends with its recovery segment. -/
theorem advanceTo_recover_end {r : Run} (h : r.prog = program .recover) (s : State) :
    advanceTo recoveryLength r s = { s with seq := .idle } :=
  advanceTo_end (by rw [h]; decide)

/-- Settles O25: the program is the recovery segment alone. -/
theorem recoverPulsesAStuckBus : Obligations.RecoverPulsesAStuckBus := by
  intro s sdas hquiet
  obtain ⟨hidle, hphy⟩ := hquiet
  refine ⟨_, exec_run .recover s (by simp) (by simp) (by simp [needsInit]), rfl, fun he => ?_, fun s1 he => ?_⟩
  · rw [← rounds_stalled, rounds_recovery_high hphy rfl rfl he, advanceTo_recover_end rfl, ← hidle]
  · rw [← rounds_stalled, rounds_recovery_low hphy rfl rfl he, advanceTo_recover_end rfl, ← hidle]
    rfl

/-! ### UV.READ on a quiet bus -/

/-- A UV result register takes the value `v`, and so does RES (42_uv.md R164). -/
def UvReg.store (dst : UvReg) (v : Half) (s : State) : State :=
  match dst with
  | .uva => { s with res := v.setWidth 32, uva := v }
  | .uvb => { s with res := v.setWidth 32, uvb := v }
  | .comp1 => { s with res := v.setWidth 32, comp1 := v }
  | .comp2 => { s with res := v.setWidth 32, comp2 := v }

theorem uvValEffect_some (dst : UvReg) (r : Run) (s : State) :
    uvValEffect (some dst) r s = dst.store (uvValue r.t0 r.t1) s := by cases dst <;> rfl

theorem store_at (dst : UvReg) (v : Half) (s : State) (q : Sequencer) :
    dst.store v { s with seq := q } = { dst.store v s with seq := q } := by cases dst <;> rfl

theorem store_phy (dst : UvReg) (v : Half) (s : State) : (dst.store v s).phy = s.phy := by cases dst <;> rfl

/-- The eager effect of one of UV.READ's register reads. -/
theorem eager_uvReadOne {b : State} {r : Run} {n : Nat} {g : Byte} {dst : UvReg} {a1 a2 a3 : Bool} {b1 b2 : Byte}
    {acks : List Bool} {bytes : List Byte} (hq : b.phy = ⟨none, false⟩) (he : b.env.acks = a1 :: a2 :: a3 :: acks)
    (hb : b.env.bytes = b1 :: b2 :: bytes) (hn : r.step = n) (h : Segment r.prog n (uvReadOne g dst)) :
    runTurns (eager 29) (b.at r) =
      .next (advanceTo (n + 29) { r with t0 := b1, t1 := b2 }
        (dst.store (b2 ++ b1) (uvRead Config.UV_DEV_ADDR g a1 a2 a3 b1 b2 acks bytes b))) := by
  have hl : n + 29 ≤ r.prog.length := segment_le h (by simp [uvReadOne])
  refine eager_seq (m := 28) (n := 1) (eager_uvrd hq he hb hn (segment_part (k := 0) h rfl) rfl rfl)
    (by simp only; omega) ?_
  refine Eq.trans (eager_set (n := n + 28) (e := .uvVal (some dst)) rfl (segment_at h rfl) ?_) ?_
  · rw [SetOp.apply, uvValEffect_some, store_phy]
    exact hq
  · rw [SetOp.apply, uvValEffect_some, State.at, store_at, advanceTo_seq, SetOp.temps, advanceTo_goto]
    rfl

theorem uvRead_length : (program .uvRead).length = 154 := by rfl

theorem recoveryLength_lt_uvRead : recoveryLength < (program .uvRead).length := by
  rw [uvRead_length]
  decide

/-- UV.READ goes on to each micro-op before its last one's end. -/
theorem uvRead_goes_on {k : Nat} (h : k < 154) : Nat.ble (k + 1) (program .uvRead).length = true := by
  rw [uvRead_length]
  exact Nat.ble_eq.mpr h

/-- A running UV.READ after its recovery segment, whose last sample was `v`. -/
abbrev uvReadRun (v : Bool) : Run := { Run.fresh .uvRead (program .uvRead) with step := recoveryLength, sda := v }

/-- The eager effect of UV.READ's four register reads. -/
theorem eager_uvChannels {b : State} {v : Bool} {a1 a2 a3 a4 a5 a6 a7 a8 a9 a10 a11 a12 : Bool}
    {b1 b2 b3 b4 b5 b6 b7 b8 : Byte} {acks : List Bool} {bytes : List Byte} (hq : b.phy = ⟨none, false⟩)
    (he : b.env.acks = a1 :: a2 :: a3 :: a4 :: a5 :: a6 :: a7 :: a8 :: a9 :: a10 :: a11 :: a12 :: acks)
    (hb : b.env.bytes = b1 :: b2 :: b3 :: b4 :: b5 :: b6 :: b7 :: b8 :: bytes) :
    runTurns (eager 116) (b.at (uvReadRun v)) = .next { b with
      seq := .idle
      ci := true
      ackstat := a12
      rxbuf := b8
      fs := .idle
      uva := b2 ++ b1
      uvb := b4 ++ b3
      comp1 := b6 ++ b5
      comp2 := b8 ++ b7
      res := (b8 ++ b7).setWidth 32
      status.ack := a12
      diag.nack := b.diag.nack + nackCount [a1, a2, a3, a4, a5, a6, a7, a8, a9, a10, a11, a12]
      env := { b.env with acks := acks, bytes := bytes }
      trace := b.trace ++
        [emitted b.fs .start] ++ uvReadTail Config.UV_DEV_ADDR Config.UV_REG_UVA a1 a2 a3 b1 b2 ++
        [emitted .idle .start] ++ uvReadTail Config.UV_DEV_ADDR Config.UV_REG_UVB a4 a5 a6 b3 b4 ++
        [emitted .idle .start] ++ uvReadTail Config.UV_DEV_ADDR Config.UV_REG_COMP1 a7 a8 a9 b5 b6 ++
        [emitted .idle .start] ++ uvReadTail Config.UV_DEV_ADDR Config.UV_REG_COMP2 a10 a11 a12 b7 b8 } := by
  have hgo {k : Nat} (hk : k < 154) := uvRead_goes_on hk
  have hend : Nat.ble (program .uvRead).length 154 = true := Nat.ble_eq.mpr (Nat.le_of_eq uvRead_length)
  refine eager_chain (m := 29) (n := 87) (eager_uvReadOne (n := 38) (dst := .uva) hq he hb rfl rfl) (hgo (by decide)) ?_
  refine eager_chain (m := 29) (n := 58) (eager_uvReadOne (n := 67) (dst := .uvb) hq rfl rfl rfl rfl) (hgo (by decide)) ?_
  refine eager_chain (m := 29) (n := 29) (eager_uvReadOne (n := 96) (dst := .comp1) hq rfl rfl rfl rfl) (hgo (by decide)) ?_
  refine eager_finish (eager_uvReadOne (n := 125) (dst := .comp2) hq rfl rfl rfl rfl) hend ?_
  simp [UvReg.store, uvRead, nack_list, BitVec.add_assoc]

/-- UV.READ goes on to the register reads where the recovery segment ends. -/
theorem eager_after_recovery {m n : Nat} {b b' : State} {v : Bool}
    (h : runTurns (eager m) (b.at (Run.fresh .uvRead (program .uvRead))) =
      .next (advanceTo recoveryLength { Run.fresh .uvRead (program .uvRead) with sda := v } b')) :
    runTurns (eager (m + n)) (b.at (Run.fresh .uvRead (program .uvRead))) =
      runTurns (eager n) (b'.at (uvReadRun v)) := by
  rw [eager_then h, advanceTo_lt recoveryLength_lt_uvRead]
  rfl

/-- Settles O33: the recovery segment with either first sample, then the four register reads. -/
theorem uvReadReadsFourChannels : Obligations.UvReadReadsFourChannels := by
  intro s a1 a2 a3 a4 a5 a6 a7 a8 a9 a10 a11 a12 b1 b2 b3 b4 b5 b6 b7 b8 acks bytes sdas hquiet hinit he hb read
  obtain ⟨hidle, hphy⟩ := hquiet
  have hseg : Segment (Run.fresh .uvRead (program .uvRead)).prog 0 recovery := segment_recovery (i := .uvRead) rfl
  refine ⟨_, exec_run .uvRead s (by simp) (by simp) (fun _ => hinit), rfl, fun hs => ?_, fun s1 hs => ?_⟩
  · have hrec := rounds_recovery_high (p := true) hphy rfl hseg hs
    rw [rounds_eager] at hrec
    refine (eager_after_recovery (n := 116) hrec).trans
      ((eager_uvChannels (by exact hphy) (by exact he) (by exact hb)).trans ?_)
    simp [read, hidle]
  · have hrec := rounds_recovery_low (p := true) hphy rfl hseg hs
    rw [rounds_eager] at hrec
    refine (eager_after_recovery (n := 116) hrec).trans
      ((eager_uvChannels (by exact hphy) (by exact he) (by exact hb)).trans ?_)
    simp [read, hidle, restoredOwner, hinit]

end Sys2Proof.Machine
end

section
/-! PROOFS. A recovery begun during a transfer that does not complete (40_transport.md R108, R119; log 7). -/

namespace Sys2Proof.Machine

/-! ### The recovery segment's steps, whatever the PHY is -/

/-- A command that recovers, at the micro-op `n` of its segment, whose last sample was `v`. -/
abbrev recoveryRun (i : Instr) (n : Nat) (v : Bool) : Run := { Run.fresh i (program i) with step := n, sda := v }

section
variable {i : Instr} {b : State} {n : Nat} {v v' : Bool} {u : MuOp} {f : State → State} {sdas : List Bool}

/-- The recovery segment's micro-op at `n`, where it acts on the state by `f` and goes on. -/
theorem seqStep_recoveryRun (hi : recovers i = true) (hu : recovery[n]? = some u) (hn : n < 36)
    (hrun : u.run (recoveryRun i n v) (b.at (recoveryRun i n v)) =
      advance (recoveryRun i n v) (f (b.at (recoveryRun i n v))))
    (hf : ∀ q, f { b with seq := q } = { f b with seq := q }) :
    seqStep (b.at (recoveryRun i n v)) = (f b).at (recoveryRun i (n + 1) v) := by
  have hlen := recovers_length hi
  exact seqStep_at (program_recovery hi hu) (show n + 1 < (program i).length by omega) hrun hf

/-- SDA_SAMPLE, whatever the PHY does. -/
theorem seqStep_sample (hi : recovers i = true) (hu : recovery[n]? = some .sdaSample) (hlt : n + 1 < (program i).length)
    (he : b.env.sdas = v' :: sdas) :
    seqStep (b.at (recoveryRun i n v)) =
      (log (.sda v') { b with env.sdas := sdas }).at (recoveryRun i (n + 1) v') := by
  rw [seqStep_run rfl (program_recovery hi hu), MuOp.run, sampleSda, takeSda_cons (e := b.env) he, advance]
  exact advanceTo_lt hlt

/-- Taking SCL neither reads nor writes S.seq. -/
theorem takeScl_at (b : State) (q : Sequencer) : takeScl { b with seq := q } = { takeScl b with seq := q } := by
  simp only [takeScl]
  split <;> rfl

/-- A recovery's first two steps where the first sample is high. -/
theorem stalled_recovery_high (hi : recovers i = true) (he : b.env.sdas = true :: sdas) :
    runTurns (stalled 2) (b.at (recoveryRun i 0 v)) = .next (advanceTo recoveryLength (recoveryRun i 1 true)
      (foundHigh (log (.sda true) { b with env.sdas := sdas }))) := by
  have hlen := recovers_length hi
  have hbr : seqStep ((log (.sda true) { b with env.sdas := sdas }).at (recoveryRun i 1 true)) = _ :=
    seqStep_run (u := .brHigh recoveryLength) rfl (program_recovery hi rfl)
  rw [runTurns_stalled_succ (runTurns_stalled_succ rfl), seqStep_sample hi rfl (by omega) he, hbr, MuOp.run, if_pos rfl]
  rfl

/-- A recovery's first three steps where the first sample is low. -/
theorem stalled_recovery_take (hi : recovers i = true) (he : b.env.sdas = false :: sdas) :
    runTurns (stalled 3) (b.at (recoveryRun i 0 v)) =
      .next ((takeScl (log (.sda false) { b with env.sdas := sdas })).at (recoveryRun i 3 false)) := by
  have hlen := recovers_length hi
  rw [runTurns_stalled_succ (runTurns_stalled_succ (runTurns_stalled_succ rfl)), seqStep_sample hi rfl (by omega) he,
    seqStep_recoveryRun (u := .brHigh recoveryLength) (f := id) hi rfl (by decide) rfl fun _ => rfl,
    seqStep_recoveryRun (u := .sclTake) (f := takeScl) hi rfl (by decide) rfl (takeScl_at _)]
  rfl

/-- `m` recovery pulses, each SCL driven low and then high (40_transport.md R119). -/
def pulsed : Nat → State → State
  | 0, b => b
  | m + 1, b => driveScl true (driveScl false (pulsed m b))

theorem pulsed_env (m : Nat) (b : State) : (pulsed m b).env = b.env := by
  induction m with
  | zero => rfl
  | succ m ih => exact ih

theorem stalled_pulses (hi : recovers i = true) {m : Nat} (hm : m ≤ Config.RECOVERY_PULSES) :
    runTurns (stalled (4 * m)) (b.at (recoveryRun i 3 v)) = .next ((pulsed m b).at (recoveryRun i (3 + 4 * m) v)) := by
  induction m with
  | zero => rfl
  | succ m ih =>
    have hmax : m < 8 := hm
    obtain ⟨h0, h1, h2, h3⟩ : recovery[3 + 4 * m]? = some (.sclDrive false) ∧
        recovery[3 + 4 * m + 1]? = some (.delay Config.T_PHASE) ∧ recovery[3 + 4 * m + 2]? = some (.sclDrive true) ∧
        recovery[3 + 4 * m + 3]? = some (.delay Config.T_PHASE) := by
      clear * - hmax
      revert m
      decide
    have hfour := runTurns_stalled_succ (runTurns_stalled_succ (runTurns_stalled_succ (runTurns_stalled_succ (ih (by omega)))))
    rw [Nat.mul_succ, hfour,
      seqStep_recoveryRun (f := driveScl false) hi h0 (by omega) rfl fun _ => rfl,
      seqStep_recoveryRun (f := id) hi h1 (by omega) rfl fun _ => rfl,
      seqStep_recoveryRun (f := driveScl true) hi h2 (by omega) rfl fun _ => rfl,
      seqStep_recoveryRun (f := id) hi h3 (by omega) rfl fun _ => rfl]
    rfl

end

/-- Finishing a recovery neither reads nor writes S.seq. -/
theorem finishRecovery_at (s1 : Bool) (b : State) (q : Sequencer) :
    finishRecovery s1 { b with seq := q } = { finishRecovery s1 b with seq := q } := by
  simp only [finishRecovery]
  split <;> rfl

/-- RECOVER from its first pulse on, whatever the PHY is: the pulses, SCL given back, the second sample, REC_FINISH. -/
theorem stalled_recover_pulses {b : State} {s1 : Bool} {sdas : List Bool} (he : b.env.sdas = s1 :: sdas) :
    runTurns (stalled 35) (b.at (recoveryRun .recover 3 false)) = .next { finishRecovery s1
      (log (.sda s1) { restoreScl (pulsed Config.RECOVERY_PULSES b) with env.sdas := sdas }) with seq := .idle } := by
  have hpulses : runTurns (stalled 32) (b.at (recoveryRun .recover 3 false)) =
      .next ((pulsed Config.RECOVERY_PULSES b).at (recoveryRun .recover 35 false)) :=
    stalled_pulses rfl (Nat.le_refl _)
  have hfinish (q : State) : seqStep (q.at (recoveryRun .recover 37 s1)) = { finishRecovery s1 q with seq := .idle } := by
    rw [seqStep_run (u := .recFinish) rfl (program_recovery (i := .recover) rfl rfl), MuOp.run, finishRecovery_at]
    rfl
  rw [runTurns_stalled_succ (runTurns_stalled_succ (runTurns_stalled_succ hpulses)),
    seqStep_recoveryRun (u := .sclRestore) (f := restoreScl) rfl rfl (by decide) rfl fun _ => rfl,
    seqStep_sample rfl rfl (by decide) (pulsed_env _ b ▸ he), hfinish]

/-! ### On a busy PHY, then a poisoned one -/

/-- What is logged while the PHY is poisoned carries `unrel`. -/
theorem log_poisoned {b : State} (h : b.phy.poisoned = true) (e : Event) :
    log e b = { b with trace := b.trace ++ [(plain e).unreliable] } := by
  simp [log, logFlagged, h, plain, Record.unreliable]

/-- A recovery after SCL_TAKE's collision with a transfer in flight: from then on the records carry `unrel` (log 7). -/
def recoveryCollided (sdas : List Bool) (s : State) : State :=
  { s with
    phy := ⟨none, true⟩
    status.coll := true
    diag.coll := s.diag.coll + 1
    pins.sclOwner := .gpio
    env.sdas := sdas
    trace := s.trace ++ [plain (.sda false), plain (.collision .recover), (plain (.sclctl .gpio)).unreliable] }

theorem takeScl_busy {s : State} {o : PhyOp} (h : s.phy = ⟨some o, false⟩) (sdas : List Bool) :
    takeScl (log (.sda false) { s with env.sdas := sdas }) = recoveryCollided sdas s := by
  simp [takeScl, h, collide_eq, log, logFlagged, plain, Record.unreliable, recoveryCollided]

theorem pulseRecords_succ (m : Nat) :
    pulseRecords (m + 1) = pulseRecords m ++ [plain (.scl false), plain (.scl true)] := by
  induction m with
  | zero => rfl
  | succ m ih => exact congrArg (fun l => plain (.scl false) :: plain (.scl true) :: l) ih

/-- The pulses driven on a poisoned PHY. -/
theorem pulsed_poisoned {b : State} (h : b.phy.poisoned = true) (m : Nat) :
    pulsed (m + 1) b = { b with
      pins.sclLevel := true, trace := b.trace ++ (pulseRecords (m + 1)).map Record.unreliable } := by
  induction m with
  | zero => simp [pulsed, driveScl, log_poisoned, h, pulseRecords]
  | succ m ih =>
    rw [pulsed, ih, pulseRecords_succ (m + 1)]
    simp [driveScl, log_poisoned, h]

/-- The end of a recovery on a poisoned PHY. -/
theorem finishRecovery_poisoned {b : State} (h : b.phy.poisoned = true) (s1 : Bool) :
    finishRecovery s1 b = { b with
      status := { b.status with recovered := true, stuck := !s1 }
      diag.recov := b.diag.recov + 1
      fs := .idle
      trace := b.trace ++ (if b.fs = .opened then [plain .abandon] else []).map Record.unreliable } := by
  cases hfs : b.fs <;> simp [finishRecovery, hfs, log_poisoned h]

/-- Settles O60: the first sample decides; where it is low SCL_TAKE collides, and RECOVER's last 35 steps run on the
poisoned PHY. -/
theorem recoveryDuringATransferCollides : Obligations.RecoveryDuringATransferCollides := by
  intro i s o sdas hi hidle hphy
  have hrec : recovers i = true := by rcases hi with rfl | ⟨rfl, -⟩ <;> rfl
  have hrun : exec i s = .next (s.at (recoveryRun i 0 false)) := by
    rcases hi with rfl | ⟨rfl, hinit⟩
    · exact exec_run .recover s (by simp) (by simp) (by simp [needsInit])
    · exact exec_run .uvRead s (by simp) (by simp) fun _ => hinit
  have htake {l : List Bool} (he : s.env.sdas = false :: l) :
      runTurns (stalled 3) (s.at (recoveryRun i 0 false)) = .next ((recoveryCollided l s).at (recoveryRun i 3 false)) :=
    takeScl_busy hphy l ▸ stalled_recovery_take hrec he
  refine ⟨_, hrun, rfl, fun he => ?_, fun he => ?_, fun s1 hi he => ?_⟩
  · refine ⟨_, stalled_recovery_high hrec he, ?_, ?_⟩
    · rcases hi with rfl | ⟨rfl, -⟩
      · rw [advanceTo_recover_end rfl]
        rfl
      · rw [advanceTo_lt recoveryLength_lt_uvRead]
        rfl
    · rw [advanceTo_eq]
      simp [foundHigh, log, logFlagged, plain, hphy]
  · exact ⟨_, htake he, rfl, rfl⟩
  · subst hi
    have hrest := runTurns_append (us := stalled 35) (htake he)
    rw [← stalled_add, stalled_recover_pulses rfl, Config.RECOVERY_PULSES, pulsed_poisoned rfl] at hrest
    refine hrest.trans (congrArg Host.Outcome.next ?_)
    rw [finishRecovery_poisoned rfl, log_poisoned rfl]
    simp [restoreScl, restoredOwner, log_poisoned, recoveryRecords, recoveryCollided, hidle, Config.RECOVERY_PULSES]

end Sys2Proof.Machine
end

section
/-! PROOFS. The light adapter's writes: L.SETADDR, and L.SETMODE and L.SETMT under the eager schedule (41_light.md R141 to
R148); then its byte order against the UV adapter's (R151). -/

namespace Sys2Proof.Machine

/-! ### L.SETADDR -/

/-- Settles O26: L.SETADDR's one micro-op, R141's SET. -/
theorem lSetAddrSelectsTheAddress : Obligations.LSetAddrSelectsTheAddress := by
  intro s hv hidle
  refine ⟨_, exec_run (.lSetAddr hv) s (by simp) (by simp) (by simp [needsInit]), rfl, ?_⟩
  rw [runTurns_single_set (i := .lSetAddr hv) rfl, SetOp.apply]
  simp [laddrEffect, hidle]

/-! ### L.SETMODE -/

/-- Settles O27: the program is one T_LCMD of S.arg's lowest byte. -/
theorem lSetModeSendsOneCommandByte : Obligations.LSetModeSendsOneCommandByte := by
  intro s a1 a2 acks hquiet hinit he
  obtain ⟨hidle, hphy⟩ := hquiet
  refine ⟨_, exec_run .lSetMode s (by simp) (by simp) (fun _ => hinit), rfl, ?_⟩
  refine eager_finish (eager_lcmd (n := 0) hphy he rfl rfl rfl) rfl ?_
  simp [lightCommanded, ByteSrc.eval, argByte, hidle]

/-! ### L.SETMT -/

/-- The byte that the first transaction of L.SETMT sends (R147). -/
def State.timeHi (s : State) : Byte := mtHiByte s.ctrl.mtCompat (argByte 0 s)

/-- The byte that the second transaction of L.SETMT sends (R147). -/
def State.timeLo (s : State) : Byte := mtLoByte s.ctrl.mtCompat (argByte 0 s)

/-- The eager effect of L.SETMT's two SETs, which change the temporaries alone. -/
theorem eager_lSetMt_bytes {s : State} (hphy : s.phy = ⟨none, false⟩) :
    runTurns (eager 2) (s.at (Run.fresh .lSetMt (program .lSetMt))) = .next (advanceTo 2
      { Run.fresh .lSetMt (program .lSetMt) with step := 1, t0 := s.timeHi, t1 := s.timeLo } s) :=
  eager_seq (m := 1) (n := 1) (eager_set (n := 0) (e := .mtHi) rfl rfl hphy)
    (show 1 < lSetMtProgram.length by decide) (eager_set (n := 1) (e := .mtLo) rfl rfl hphy)

/-- Settles O28: the two bytes are put into the temporaries, then one T_LCMD for each. -/
theorem lSetMtSendsBothTimeBytes : Obligations.LSetMtSendsBothTimeBytes := by
  intro s a1 a2 a3 a4 acks hquiet hinit he _ _ _ hi lo
  obtain ⟨hidle, hphy⟩ := hquiet
  refine ⟨_, exec_run .lSetMt s (by simp) (by simp) (fun _ => hinit), rfl, ?_⟩
  refine eager_chain (m := 2) (n := 24) (eager_lSetMt_bytes hphy) rfl ?_
  refine eager_chain (m := 12) (n := 12) (eager_lcmd (n := 2) (src := .t0) (x := hi) hphy he rfl rfl rfl) rfl ?_
  refine eager_finish (eager_lcmd (n := 14) (src := .t1) (x := lo) hphy rfl rfl rfl rfl) rfl ?_
  simp [lightCommanded, nack_list, BitVec.add_assoc, hidle]

/-- The high fields agree below 0x40: `v >> 5` is its own truth value. -/
theorem mtHiField_eq_mtcHiField_iff (v : Byte) : mtHiField v = mtcHiField v ↔ v.toNat < 64 := by
  have hv := v.isLt
  have hshift : (v >>> 5).toNat = v.toNat / 32 := by simp [Nat.shiftRight_eq_div_pow]
  have hfield : (mtHiField v).toNat = v.toNat / 32 := by
    rw [mtHiField, BitVec.toNat_and, hshift]
    exact (Nat.and_two_pow_sub_one_eq_mod _ 3).trans (Nat.mod_eq_of_lt (by omega))
  rw [mtcHiField, ← BitVec.toNat_inj, hfield]
  split
  · next h =>
    have hzero : v.toNat / 32 = 0 := hshift.symm.trans (congrArg BitVec.toNat h)
    exact iff_of_true hzero (by omega)
  · next h =>
    have hpos : v.toNat / 32 ≠ 0 := fun h0 => h (BitVec.eq_of_toNat_eq (hshift.trans h0))
    show v.toNat / 32 = 1 ↔ v.toNat < 64
    omega

/-- The low fields agree at 0x00 and where the low five bits hold 1. -/
theorem mtLoField_eq_mtcLoField_iff (v : Byte) : mtLoField v = mtcLoField v ↔ v = 0x00 ∨ v.toNat % 32 = 1 := by
  have hfield : (mtLoField v).toNat = v.toNat % 32 := by
    rw [mtLoField, BitVec.toNat_and]
    exact Nat.and_two_pow_sub_one_eq_mod _ 5
  rw [mtcLoField, ← BitVec.toNat_inj, hfield]
  split
  · next h => simp [h]
  · next h => exact (or_iff_right h).symm

/-- Settles O57: below 0x40, the values that are 0 or hold 1 in their low five bits. -/
theorem measurementTimeFormsAgreeOnThree : Obligations.MeasurementTimeFormsAgreeOnThree := by
  intro v
  rw [mtHiField_eq_mtcHiField_iff, mtLoField_eq_mtcLoField_iff]
  simp only [← BitVec.toNat_inj, BitVec.ofNat_eq_ofNat, BitVec.toNat_ofNat]
  omega

/-! ### The byte orders -/

/-- The value of two bytes put together, the first one high. -/
theorem toNat_append_byte (b1 b2 : Byte) : (b1 ++ b2).toNat = b1.toNat * 256 + b2.toNat := by
  rw [BitVec.toNat_append, ← Nat.shiftLeft_add_eq_or_of_lt b2.isLt, Nat.shiftLeft_eq]

/-- Settles O56: as numbers the two values differ by `255 * (b1 - b2)`. -/
theorem byteOrdersDiffer : Obligations.ByteOrdersDiffer := by
  intro b1 b2
  have hlight : (lightValue b1 b2).toNat = b1.toNat * 256 + b2.toNat := toNat_append_byte b1 b2
  have huv : (uvValue b1 b2).toNat = b2.toNat * 256 + b1.toNat := toNat_append_byte b2 b1
  refine ⟨hlight, huv, ?_, rfl, rfl⟩
  rw [← BitVec.toNat_inj, ← BitVec.toNat_inj, hlight, huv]
  omega

end Sys2Proof.Machine
end

section
/-! PROOFS. The UV adapter: UV.RDREG and UV.START under the eager schedule (42_uv.md R157 to R162), and what the
configuration word determines (R161). -/

namespace Sys2Proof.Machine

/-! ### The configuration word -/

/-- A selection's constant stands at its place in the table (R161). -/
theorem uvItBits_getElem? (p : DeviceParams) (it : BitVec 2) : p.uvItBits[it.toNat]? = some (p.uvItSel it) := by
  obtain h | h | h | h : it = 0 ∨ it = 1 ∨ it = 2 ∨ it = 3 := by
    revert it
    decide
  all_goals
    subst h
    rfl

/-- A table without repetition gives each selection its own constant. -/
theorem uvItSel_inj {p : DeviceParams} (hdistinct : p.uvItBits.Nodup) {it it' : BitVec 2}
    (h : p.uvItSel it = p.uvItSel it') : it = it' := by
  have hplace : p.uvItBits[it.toNat]? = p.uvItBits[it'.toNat]? := by
    rw [uvItBits_getElem?, uvItBits_getElem?, h]
  exact BitVec.eq_of_toNat_eq ((List.getElem?_inj it.isLt hdistinct).mp hplace)

/-- What R161 requires of the constants. -/
theorem uv_requirements_of_ok {p : DeviceParams} (h : p.ok = true) :
    p.uvItBits.Nodup ∧ p.uvHdMask ≠ 0#8 ∧ ∀ it, p.uvItSel it &&& p.uvHdMask = 0#8 := by
  simp only [DeviceParams.ok, Bool.and_eq_true, decide_eq_true_eq, List.any_eq_true, List.mem_range, List.all_eq_true,
    beq_iff_eq] at h
  obtain ⟨⟨⟨_, hdistinct⟩, i, hi, hmask⟩, hdisjoint⟩ := h
  refine ⟨hdistinct, ?_, fun it => hdisjoint _ ?_⟩
  · have hbit : ∀ i < 8, 1#8 <<< i ≠ 0#8 := by decide
    exact hmask ▸ hbit i hi
  · exact List.mem_of_getElem? (uvItBits_getElem? p it)

/-- The word under UV_HD_MASK is the HD selection's part. -/
theorem uvConfigWordOf_and_mask {p : DeviceParams} {it : BitVec 2} (h : p.uvItSel it &&& p.uvHdMask = 0#8) (hd : Bool) :
    uvConfigWordOf p it hd &&& p.uvHdMask = if hd then p.uvHdMask else 0#8 := by
  cases hd <;> simp [uvConfigWordOf, BitVec.and_or_distrib_right, h]

/-- The word outside UV_HD_MASK is the IT selection's part. -/
theorem uvConfigWordOf_and_not_mask {p : DeviceParams} {it : BitVec 2} (h : p.uvItSel it &&& p.uvHdMask = 0#8)
    (hd : Bool) : uvConfigWordOf p it hd &&& ~~~p.uvHdMask = p.uvItSel it := by
  have hsel : p.uvItSel it &&& ~~~p.uvHdMask = p.uvItSel it :=
    calc p.uvItSel it &&& ~~~p.uvHdMask
      _ = (p.uvItSel it &&& ~~~p.uvHdMask) ||| (p.uvItSel it &&& p.uvHdMask) := by rw [h, BitVec.or_zero]
      _ = p.uvItSel it &&& (~~~p.uvHdMask ||| p.uvHdMask) := BitVec.and_or_distrib_left.symm
      _ = p.uvItSel it := by rw [BitVec.not_or_self, BitVec.and_allOnes]
  cases hd <;> simp [uvConfigWordOf, BitVec.and_or_distrib_right, hsel]

/-- R161's requirements make the word determine both selections. -/
theorem uvConfigWordOf_inj {p : DeviceParams} (hok : p.ok = true) {it it' : BitVec 2} {hd hd' : Bool}
    (h : uvConfigWordOf p it hd = uvConfigWordOf p it' hd') : it = it' ∧ hd = hd' := by
  obtain ⟨hdistinct, hmask, hdisjoint⟩ := uv_requirements_of_ok hok
  constructor
  · have hsel := congrArg (· &&& ~~~p.uvHdMask) h
    simp only [uvConfigWordOf_and_not_mask (hdisjoint _)] at hsel
    exact uvItSel_inj hdistinct hsel
  · have hbit := congrArg (· &&& p.uvHdMask) h
    simp only [uvConfigWordOf_and_mask (hdisjoint _)] at hbit
    cases hd <;> cases hd'
    · rfl
    · exact absurd hbit.symm hmask
    · exact absurd hbit hmask
    · rfl

/-- Either choice of the constants meets the requirements (log 9). -/
theorem device_ok : Config.device.ok = true := by
  unfold Config.device
  split
  · assumption
  · decide

/-- Settles O58: one mask reads the HD selection off the word, its complement the IT selection. -/
theorem uvConfigWordDeterminesSelections : Obligations.UvConfigWordDeterminesSelections :=
  ⟨fun _ _ _ _ _ hok => uvConfigWordOf_inj hok, device_ok, fun _ _ _ _ => uvConfigWordOf_inj device_ok⟩

/-! ### UV.RDREG -/

/-- Settles O31: the program is one T_UVRD over the two low bytes of S.arg, then the SET that puts the received bytes
together. -/
theorem uvRdRegDecodesLittleEndian : Obligations.UvRdRegDecodesLittleEndian := by
  intro s a1 a2 a3 b1 b2 acks bytes hquiet hinit he hb
  obtain ⟨hidle, hphy⟩ := hquiet
  refine ⟨_, exec_run .uvRdReg s (by simp) (by simp) (fun _ => hinit), rfl, ?_⟩
  refine eager_chain (m := 28) (n := 1) (eager_uvrd (n := 0) hphy he hb rfl rfl rfl rfl) rfl ?_
  refine eager_finish (eager_set (n := 28) (e := .uvVal none) rfl rfl ?_) rfl ?_
  · exact hphy
  · simp [uvRead, uvValEffect, SetOp.apply, uvValue, ByteSrc.eval, argByte, hidle]

/-! ### UV.START -/

/-- The eager effect of UV.START's SET, which changes the temporaries alone. -/
theorem eager_uvStart_config {s : State} (hphy : s.phy = ⟨none, false⟩) :
    runTurns (eager 1) (s.at (Run.fresh .uvStart (program .uvStart))) = .next (advanceTo 1
      { Run.fresh .uvStart (program .uvStart) with t0 := uvConfigWord s.ctrl.uvIt s.ctrl.uvHd } s) :=
  eager_set (n := 0) (e := .uvCfg) rfl rfl hphy

/-- Settles O32: the SET of the configuration word, then one T_UVWR that sends it. -/
theorem uvStartWritesConfigWord : Obligations.UvStartWritesConfigWord := by
  intro s a1 a2 a3 a4 acks hquiet hinit he
  obtain ⟨hidle, hphy⟩ := hquiet
  refine ⟨_, exec_run .uvStart s (by simp) (by simp) (fun _ => hinit), rfl, ?_⟩
  refine eager_chain (m := 1) (n := 20) (eager_uvStart_config hphy) rfl ?_
  refine eager_finish (eager_uvwr (n := 1) (lo := uvConfigWord s.ctrl.uvIt s.ctrl.uvHd) hphy he rfl rfl rfl rfl rfl rfl)
    rfl ?_
  simp [uvWritten, ByteSrc.eval, uvConfigWord, uvConfigWordOf, Config.UV_IT_BITS, Config.UV_HD_MASK, hidle]

end Sys2Proof.Machine
end

section
/-! PROOFS. The telemetry frame and the message counter: FR.BUILD and CNT.INC, each one SEQ step from an idle sequencer
(43_frame.md R171 to R176, R182). -/

namespace Sys2Proof.Machine

/-! ### FR.BUILD -/

/-- Storing the same bytes again leaves the memory as it is. -/
theorem memory_writeBytes_writeBytes {m : Memory} (h : m.wf) (a : Nat) (bs : List Byte) :
    (m.writeBytes a bs).writeBytes a bs = m.writeBytes a bs := by
  have hwf := memory_writeBytes_wf h a bs
  refine memory_eq_of_read (memory_writeBytes_wf hwf a bs) hwf fun x => ?_
  by_cases hx : x < a ∨ a + bs.length ≤ x
  · exact memory_read_writeBytes_outside _ _ hx
  · obtain ⟨i, rfl⟩ : ∃ i, x = a + i := ⟨x - a, by omega⟩
    have hi : i < bs.length := by omega
    rw [memory_read_writeBytes hwf a i bs hi, memory_read_writeBytes h a i bs hi]

/-- The checksum covers the whole body, R173. -/
theorem frameChecksum_eq (s : State) : frameChecksum s = Config.CHECKSUM16 (frameBody s) := by
  have hcover : (frameBody s).length = Config.CK_COVER := frameBody_length s
  rw [frameChecksum, ← hcover, List.take_length]

/-- The frame as FR.BUILD leaves it: the body, then the checksum over it, low byte first. -/
theorem frameSeq_frameEffect {s : State} (h : s.frame.wf) :
    frameSeq (frameEffect s) = frameBody s ++ le16 (Config.CHECKSUM16 (frameBody s)) := by
  have hlen : (frameBytes s).length = Config.FRAME_LEN := frameBytes_length s
  rw [frameSeq, frameEffect_frame, memory_readBytes_writeBytes h _ _ _ (Nat.le_of_eq hlen.symm), ← hlen, List.take_length,
    frameBytes, frameChecksum_eq]

/-- FR.BUILD writes no byte outside FRAME. -/
theorem frameEffect_read_outside (s : State) {a : Nat} (h : a < 0x80 ∨ 0xB2 ≤ a) :
    (frameEffect s).frame.read a = s.frame.read a := by
  rw [frameEffect_frame]
  refine memory_read_writeBytes_outside _ _ ?_
  rw [frameBytes_length]
  exact h

/-- FR.BUILD does not read S.seq. -/
theorem frameEffect_at (s : State) (q : Sequencer) : frameEffect { s with seq := q } = { frameEffect s with seq := q } := by
  have hbytes : frameBytes { s with seq := q } = frameBytes s := rfl
  rw [frameEffect, hbytes, frameEffect]

/-- FR.BUILD's one micro-op, R172's SET: launched from an idle sequencer, its one SEQ step has `frameEffect` alone. -/
theorem runTurns_frBuild {s : State} (hidle : s.seq = .idle) :
    runTurns [.seq] (s.at (Run.fresh .frBuild (program .frBuild))) = .next (frameEffect s) := by
  rw [runTurns_single_set (i := .frBuild) rfl, SetOp.apply, State.at, frameEffect_at, frameEffect, ← hidle]

theorem exec_frBuild (s : State) : exec .frBuild s = .next (s.at (Run.fresh .frBuild (program .frBuild))) :=
  exec_run .frBuild s (by simp) (by simp) (by simp [needsInit])

/-- Settles O34: what is read back is what FR.BUILD's SET stores. -/
theorem frBuildAssemblesTheFrame : Obligations.FrBuildAssemblesTheFrame := by
  intro s hidle hwf
  refine ⟨_, frameEffect s, exec_frBuild s, rfl, runTurns_frBuild hidle, ?_, ?_, frameEffect_wf hwf,
    fun a ha => frameEffect_read_outside s ha⟩
  · simpa [frameBody, be16, be32, le16, le32, zeros, Config.FRAME_LEN] using frameSeq_frameEffect hwf
  · rw [frameEffect_frame, frameEffect]

/-- The frame is made of registers that FR.BUILD does not write, so it makes the same frame again. -/
theorem frameEffect_frameEffect {s : State} (h : s.frame.wf) : frameEffect (frameEffect s) = frameEffect s := by
  have hbytes : frameBytes (frameEffect s) = frameBytes s := rfl
  rw [frameEffect, hbytes, frameEffect_frame, memory_writeBytes_writeBytes h]
  rfl

/-- A whole FR.BUILD from an idle sequencer ends in one state only. -/
theorem frBuild_result {s s1 t : State} (hidle : s.seq = .idle) (hexec : exec .frBuild s = .next s1)
    (hrun : runTurns [.seq] s1 = .next t) : t = frameEffect s := by
  obtain rfl := Host.Outcome.next.inj ((exec_frBuild s).symm.trans hexec)
  exact Host.Outcome.next.inj (hrun.symm.trans (runTurns_frBuild hidle))

/-- Settles O59: each FR.BUILD has `frameEffect`, and the second leaves what the first made. -/
theorem frBuildIsIdempotent : Obligations.FrBuildIsIdempotent := by
  intro s t u hidle hwf ⟨s1, hexec, hrun⟩ ⟨t1, hexec', hrun'⟩
  obtain rfl := frBuild_result hidle hexec hrun
  rw [frBuild_result (s := frameEffect s) hidle hexec' hrun', frameEffect_frameEffect hwf]

/-! ### CNT.INC -/

/-- Settles O35: CNT.INC's one micro-op, R176's SET; a word's sum is already modulo 2^32. -/
theorem cntIncAddsOne : Obligations.CntIncAddsOne := by
  intro s hidle
  refine ⟨_, exec_run .cntInc s (by simp) (by simp) (by simp [needsInit]), rfl, ?_⟩
  have hsum : s.cnt + 1 = BitVec.ofNat 32 ((s.cnt.toNat + 1) % 2 ^ 32) := by
    apply BitVec.eq_of_toNat_eq
    simp [BitVec.toNat_add]
  rw [runTurns_single_set (i := .cntInc) rfl, SetOp.apply, cntIncEffect, State.at, hsum, ← hidle]

end Sys2Proof.Machine
end

section
/-! PROOFS. The errors of a host write: their order, their record in STATUS and its clearing; no step is stuck
(60_exceptions.md R186 to R203). -/

namespace Sys2Proof.Machine

/-! ### A rejected write to CMD -/

/-- A word the decoder rejects is latched and its error recorded (R101). -/
theorem hostWrite_rejected {s : State} {w : Word} {c : ErrCode} (hb : s.busy = false) (hw : decodeWord w = .error c) :
    hostWrite 0x0C .word w s = .next (raiseCmdError c (latchCommand w s)) := by
  rw [hostWrite_cmd w hb, writeCmd_rejected hw]

/-- A bus command before INIT only records NOT_INIT (R102). -/
theorem exec_notInit {i : Instr} {s : State} (hneeds : needsInit i = true) (hoff : s.initd = false) :
    exec i s = .next (raiseCmdError .notInit s) := by
  have hbus : i ≠ .init := by
    rintro rfl
    simp [needsInit] at hneeds
  rw [exec_eq, if_neg fun h => hbus h.1, if_pos ⟨hneeds, hoff⟩]

/-- INIT with the target clock 0 only records BAD_ARG (R110). -/
theorem exec_init_badArg {s : State} (hclk : s.argLatch = 0) : exec .init s = .next (raiseCmdError .badArg s) := by
  obtain ⟨-, -, -, hbadArg⟩ := busCommandsNeedInit s
  exact hbadArg hclk

/-- Settles O16: the port's two checks, then the decoder's two on the word alone, then the launch's two on the state. Of
R189's two words, 0x109 has an unassigned opcode below its F bit, and 0x103 is START with F set. -/
theorem cmdErrorPriority : Obligations.CmdErrorPriority := by
  intro s off width v
  refine ⟨hostWrite_busy off width v, hostWrite_badAccess v, fun hb => ⟨fun hopc => ?_, fun row hrow hbad => ?_,
    fun i hw hneeds hoff => ?_, fun hw hclk => ?_⟩, fun hb _ => ⟨?_, ?_⟩⟩
  · exact hostWrite_rejected hb (decodeWord_illegal hopc)
  · exact hostWrite_rejected hb (decodeWord_reserved hrow hbad)
  · exact (hostWrite_runs hb hw).trans (exec_notInit hneeds hoff)
  · exact (hostWrite_runs hb hw).trans (exec_init_badArg hclk)
  · exact hostWrite_rejected hb (decodeWord_illegal rfl)
  · exact hostWrite_rejected hb (decodeWord_reserved rfl (.inr ⟨rfl, rfl⟩))

/-! ### Progress -/

/-- Settles O7: a step is one agent's turn, and every turn answers a next state. -/
theorem everyStepAnswersNext : Obligations.EveryStepAnswersNext := fun s =>
  agentStep_next (whoseTurn s) (turnTaken s)

/-! ### The record of an error and its clearing -/

/-- Settles O15: the two cases of a CmdError exclude each other, and a STATUS write clears the bits that are set in the
written word. -/
theorem secondCmdErrorKeepsFirstCode : Obligations.SecondCmdErrorKeepsFirstCode := by
  intro s c
  refine ⟨fun hfirst => ?_, fun hsecond => ?_, ?_, ?_, ?_⟩
  · obtain ⟨-, he⟩ | ⟨herr, -⟩ := raiseCmdError_cases c s
    · exact he
    · simp [hfirst] at herr
  · obtain ⟨herr, -⟩ | ⟨-, he⟩ := raiseCmdError_cases c s
    · simp [hsecond] at herr
    · exact he
  · rw [clearStatus_status]; simp
  · rw [clearStatus_status]; simp
  · rw [clearStatus_status]; simp

end Sys2Proof.Machine
end
